-- ==== Sys2Proof/Word.lean ====
section
/-! DEFINITION. The words of the FK7260: a byte, a 16-bit word and a 48-bit factory identity (1.8, Table 9-6). -/
namespace Sys2Proof

/-- One byte of a host frame, or the data byte of one trunk character (R31, Table 9-4). -/
abbrev Byte := BitVec 8

/-- A 16-bit word: the status word, the label, the cause flags, the wrapping counters. -/
abbrev Half := BitVec 16

/-- A station's 48-bit factory identity (1.8). -/
abbrev Identity := BitVec 48

end Sys2Proof
end

