-- ==== Sys2Proof/Syntax.lean ====
section
/-! DEFINITION. The commands of the FK7260: one constructor for each row of spec/opcode_table.json, in the table's order.
A row that takes something from a pin carries it as its operand. A request row (ECHO, PIN, ...) is the Dispatcher's take of
the head of the Request FIFO (R191), so its tag and its arguments are the bytes of that head and it has no operand of its
own (log entry 2). -/
namespace Sys2Proof

/-- The rows of the table of operations and events (spec/opcode_table.json; 95_what_each_step_holds.md). -/
inductive Instr where
  /-- RST# falls (R202). -/
  | rstAssert
  /-- RST# rises (R202). -/
  | rstRise
  /-- CS# falls (R181). -/
  | csFall
  /-- The eighth bit of the access byte is sampled (R181). -/
  | accessByte (b : Byte)
  /-- A byte of a WRITE access is complete (R183). -/
  | requestByte (b : Byte)
  /-- CS# rises (R181, R185). -/
  | csRise
  /-- A byte of a READ_RESPONSE access is complete (R187). -/
  | responseByteRead
  /-- The Dispatcher takes a bad-frame marker (R186). -/
  | badFrame
  /-- The Dispatcher takes a frame whose code is not in the catalogue (R193). -/
  | unknownRequest
  /-- ECHO is taken (R200). -/
  | echo
  /-- READ_ENGINE is taken (R71). -/
  | readEngine
  /-- CONFIGURE is taken (R173 to R176). -/
  | configure
  /-- READ_CONFIG is taken (R179). -/
  | readConfig
  /-- TRUNK_CONTROL is taken with action ENABLE, or with an action or an argument count out of range (R60). -/
  | enable
  /-- TRUNK_CONTROL is taken with action DISABLE (R61). -/
  | disable
  /-- TRUNK_CONTROL is taken with action RESET_TRUNK (R62 to R64). -/
  | resetTrunk
  /-- RESET is taken (R201). -/
  | reset
  /-- CAUSE_CONTROL is taken (R208). -/
  | causeControl
  /-- READ_CAUSES is taken (R210). -/
  | readCauses
  /-- READ_CHANGES is taken (R213). -/
  | readChanges
  /-- READ_SLOT is taken (R28). -/
  | readSlot
  /-- LOOKUP_IDENTITY is taken (R26). -/
  | lookupIdentity
  /-- LOOKUP_ADDRESS is taken (R27). -/
  | lookupAddress
  /-- SET_FIELDS is taken (R29). -/
  | setFields
  /-- PIN is taken (R19). -/
  | pin
  /-- RETIRE is taken with mode FORCED, or with a mode or an argument count out of range (R21 to R24). -/
  | retireForced
  /-- RETIRE is taken with mode GRACEFUL (R148, R149). -/
  | retireGraceful
  /-- RING_MOVE is taken (R101). -/
  | ringMove
  /-- SET_ENROL_MODE is taken (R74). -/
  | setEnrolMode
  /-- ADMIT_ADD is taken (R87). -/
  | admitAdd
  /-- ADMIT_REMOVE is taken (R88). -/
  | admitRemove
  /-- ADMIT_CLEAR is taken (R89). -/
  | admitClear
  /-- ADMIT_READ is taken (R89). -/
  | admitRead
  /-- POLL_CONTROL is taken (R103, R111). -/
  | pollControl
  /-- POLL_ROUND is taken (R110). -/
  | pollRound
  /-- CENSUS_START is taken (R130, R131). -/
  | censusStart
  /-- CENSUS_STOP is taken (R144). -/
  | censusStop
  /-- CENSUS_STEP is taken (R134). -/
  | censusStep
  /-- CENSUS_STATUS is taken (R145). -/
  | censusStatus
  /-- RELAY is taken (R156). -/
  | relay
  /-- RELAY_CANCEL is taken (R161). -/
  | relayCancel
  /-- The tick prescaler reaches REFCLK_KHZ (R165). -/
  | tick
  /-- The seconds count has reached 1000 and the strobe is taken (R12, R166). -/
  | secondsStrobe
  /-- The pace timer has run out and its expiry is taken (R109, R169). -/
  | paceExpiry
  /-- The solicit timer has run out and its expiry is taken (R75, R169). -/
  | solicitExpiry
  /-- The census-step timer has run out and its expiry is taken (R133, R169). -/
  | censusStepExpiry
  /-- TRUNK_FAULT rises (R65, R66). -/
  | trunkFaultRising
  /-- TRUNK_FAULT falls (R65, R67). -/
  | trunkFaultFalling
  /-- The fault-grace timer has run out with the pin high and the fault drop is taken (R68 to R70). -/
  | faultDrop
  /-- The arbiter grants (R57). -/
  | grant
  /-- The last stop bit of a downstream frame ends (R51). -/
  | frameSent
  /-- The stop bit of an upstream character has been sampled: its data bits, its flag bit, its parity bit and its stop bit
  as read from RXD (R31, R33). -/
  | characterReceived (data : Byte) (flag parity stop : Bool)
  /-- One character time of idle has followed a received character (R40 item 2). -/
  | replyIdleTimeout
  /-- REPLY_WAIT character times have passed with no reply begun (R39). -/
  | replyWindowTimeout
  /-- The 56 character times of the solicit listen have passed with no frame in reception (R45). -/
  | solicitListenEnd
  /-- The guard ends (R44, R51). -/
  | guardEnd
  /-- A fall of RXD is judged at the middle of its start bit: `began` is its REFCLK period, counted from the opening of the
  reply window or listen, and `middle` is RXD as read there (R33). -/
  | startBit (began : Nat) (middle : Bool)
  /-- The falling SCK edge that begins a byte of a READ_RESPONSE access (R187). -/
  | responseByteBegin
  deriving DecidableEq, Repr

end Sys2Proof
end

