-- ==== Sys2Proof/Decode.lean ====
section
/-! DEFINITION. The decoder. The FK7260 is a block that is driven through its pins: spec/opcode_table.json gives none of its
58 rows a bit pattern, so there is no word that spells a command and the decoder answers none on every word (log entry 1). -/
namespace Sys2Proof

/-- The command spelt by the `nbits` low bits of `w`: none, since no row of the table has bits. -/
def decodeTableWord (_nbits _w : Nat) : Option Instr := none

end Sys2Proof
end

