-- ==== Sys2Proof/Config.lean ====
section
/-! DEFINITION. What the part fixes for good: the sizes of its tables, lists, queues and FIFOs.
The spec leaves no value open that would need a free value, so no opaque constant stands here (INVENTORY.md says what
was looked at). The 22 configurable parameters are state (R172): `Params` in Machine/Blocks.lean. -/
namespace Sys2Proof.Config

/-- Lease records, slots 0 to 63 (1.2, R1). -/
abbrev slots : Nat := 64
/-- Address Map entries, addresses 1 to 126 (1.2, R8). -/
abbrev addresses : Nat := 126
/-- Bytes of the Request FIFO (R184). -/
abbrev requestFifo : Nat := 256
/-- Bytes of the Response FIFO (R189). -/
abbrev responseFifo : Nat := 512
/-- Identities the Admission List can hold (R86). -/
abbrev admission : Nat := 32
/-- Entries the Release Queue can hold (R147). -/
abbrev releases : Nat := 16
/-- Entries the Relay Queue can hold (R155). -/
abbrev relays : Nat := 8
/-- Ticks from one seconds strobe to the next (R166). -/
abbrev ticksPerSecond : Nat := 1000
/-- Character times of one sub-slot of a solicit listen (R45). -/
abbrev subSlotCharacters : Nat := 14
/-- Character times of the whole solicit listen (R45). -/
abbrev listenCharacters : Nat := 56
/-- Bit times of one character (R31, R168). -/
abbrev characterBits : Nat := 12

end Sys2Proof.Config
end

