-- ==== Sys2Proof/Machine/Blocks.lean ====
section
/-! DEFINITION. The state each of the part's blocks owns (1.2), as plain data, and its reset value.
Numbers the manual counts with are Nat; counters it says wrap and words software sees whole are bit vectors. A field that is
absent in some state of its record (R1) is a field of that state's constructor, so it cannot be present elsewhere. -/
namespace Sys2Proof.Machine

/-- The index 0..63 of a lease record (R1). -/
abbrev Slot := Fin Config.slots

/-- A leased address 1..126 (R8), held as its number less one: 0 and 127 have no entry and cannot be written. -/
abbrev Address := Fin Config.addresses

/-! ### Lease Table and Address Map (chapter 01) -/

/-- How a lease record came about (R1). -/
inductive Origin where
  | joined | adopted | pinned
  deriving DecidableEq, Repr

/-- What an abandoned offer goes back to (R1, R93). -/
inductive Prior where
  | fresh     -- NEW
  | reserved
  | lost
  deriving DecidableEq, Repr

/-- The six states of a lease that is not FREE, each with the fields R1 gives to that state alone. -/
inductive LeaseStatus where
  | reserved
  | offered (prior : Prior)
  | bound (term miss : Nat)
  | suspect (term miss : Nat)
  | lost (quarantine : Nat)
  | releasing (term : Nat)
  deriving DecidableEq, Repr

/-- A lease record that is not FREE (R1). -/
structure Lease where
  status         : LeaseStatus
  identity       : Identity
  address        : Address
  cls            : Option Byte
  origin         : Origin
  cadence        : Nat
  cadenceCount   : Nat
  lastStatus     : Option Half
  label          : Option Half
  windowAttempts : Nat
  windowBad      : Nat
  lastWindowBad  : Option Nat
  windowsClosed  : Byte
  poor           : Bool
  deriving DecidableEq, Repr

/-- One entry of the Address Map (R8). -/
inductive AddrEntry where
  | free
  | quarantined (seconds : Nat)
  | held (slot : Slot)
  deriving DecidableEq, Repr

/-- The Lease Table and the Address Map (R1, R8); a FREE slot is `none` (R3). -/
structure LeaseTable where
  slots : Vector (Option Lease) Config.slots
  map   : Vector AddrEntry Config.addresses
  deriving DecidableEq, Repr

/-- R30: every slot FREE and every address entry FREE. -/
def LeaseTable.reset : LeaseTable :=
  { slots := Vector.replicate Config.slots none, map := Vector.replicate Config.addresses .free }

/-! ### Enrolment Unit (chapter 04) -/

/-- The enrolment mode (R73). -/
inductive EnrolMode where
  | closed | listed | opened
  deriving DecidableEq, Repr

/-- An Offer List entry: the OFFERED slot and its count of failed attempts (R90). -/
structure Offer where
  slot     : Slot
  attempts : Nat
  deriving DecidableEq, Repr

/-- The Enrolment Unit's state (chapter 04): lists run from index 0, or from the head. -/
structure Enrolment where
  mode          : EnrolMode
  solicitDue    : Bool
  admission     : List Identity
  offers        : List Offer
  solicitNumber : Byte
  deriving DecidableEq, Repr

/-- R98. -/
def Enrolment.reset : Enrolment :=
  { mode := .closed, solicitDue := false, admission := [], offers := [], solicitNumber := 0 }

/-! ### Poll Scheduler (chapter 05) -/

/-- A member of the Poll Ring with its visited mark (R99). -/
structure RingMember where
  slot    : Slot
  visited : Bool
  deriving DecidableEq, Repr

/-- The poll mode (Table 5-1). -/
inductive PollMode where
  | off | continuous | paced | single
  deriving DecidableEq, Repr

/-- The scheduler state (R102). -/
inductive SchedulerState where
  | off | wait | round
  deriving DecidableEq, Repr

/-- The pending poll and whether its transaction has been granted (R106). -/
structure PendingPoll where
  slot     : Slot
  inFlight : Bool
  deriving DecidableEq, Repr

/-- The Poll Scheduler's state; `detached` is the slot of a detached poll still in flight (R111). -/
structure Scheduler where
  ring     : List RingMember
  mode     : PollMode
  state    : SchedulerState
  pending  : Option PendingPoll
  detached : Option Slot
  rounds   : Half
  deriving DecidableEq, Repr

/-- R102, R124. -/
def Scheduler.reset : Scheduler :=
  { ring := [], mode := .off, state := .off, pending := none, detached := none, rounds := 0 }

/-! ### Census Unit (chapter 06) -/

/-- The census mode (R127). -/
inductive CensusMode where
  | onceR | once | continuous | stepped
  deriving DecidableEq, Repr

/-- The census state (R127). -/
inductive CensusState where
  | idle | running | waitStep
  deriving DecidableEq, Repr

/-- The probe of the current sweep and whether it has been granted (R127, R135). -/
structure PendingProbe where
  address  : Address
  inFlight : Bool
  deriving DecidableEq, Repr

/-- The Census Unit's state (R127). `beyond` says that the walk stands at the position after `last` (R128): the cursor
then shows `first`, the next address the sweep will consider (log entry 8). -/
structure Census where
  state       : CensusState
  mode        : CensusMode
  first       : Address
  last        : Address
  cursor      : Address
  beyond      : Bool
  stepPending : Bool
  probeNamed  : Bool
  passes      : Half
  adopted     : Half
  pending     : Option PendingProbe
  detached    : Option Address
  deriving DecidableEq, Repr

/-- R146: IDLE, ONCE, first 1, last 126, cursor 1, both counts 0, no probe. -/
def Census.reset : Census :=
  { state := .idle, mode := .once, first := 0, last := 125, cursor := 0, beyond := false, stepPending := false,
    probeNamed := false, passes := 0, adopted := 0, pending := none, detached := none }

/-! ### Release Queue and Relay Queue (chapter 07) -/

/-- Why a release waits; RETIRE makes a lease entry and carries its slot and tag (Table 7-1). -/
inductive ReleaseReason where
  | retire (slot : Slot) (tag : Byte)
  | clash
  | conflict
  | redirect
  deriving DecidableEq, Repr

/-- A Release Queue entry (Table 7-1). -/
structure Release where
  address  : Address
  reason   : ReleaseReason
  inFlight : Bool
  deriving DecidableEq, Repr

/-- The target of a relay (Table 7-5). -/
inductive RelayTarget where
  | slot (n : Slot)
  | broadcast
  deriving DecidableEq, Repr

/-- A Relay Queue entry (Table 7-5); `retries` none is FFh, RELAY_RETRIES as configured at grant. -/
structure Relay where
  tag       : Byte
  target    : RelayTarget
  waitReply : Bool
  retries   : Option Nat
  payload   : List Byte
  inFlight  : Bool
  deriving DecidableEq, Repr

/-! ### Trunk Engine (chapters 02 and 03) -/

/-- The engine state (Table 3-1). -/
inductive EngineState where
  | off | idle | send | listen | receive | guarding | held
  deriving DecidableEq, Repr

/-- The kind of a transaction (Table 3-3). -/
inductive TxnKind where
  | poll | solicit | offer | release | probe | relay
  deriving DecidableEq, Repr

/-- A trunk address: broadcast 0, a leased address 1..126, or the newcomer address 127 (1.8). -/
inductive TrunkAddress where
  | broadcast
  | station (a : Address)
  | newcomer
  deriving DecidableEq, Repr

/-- The reason of a GARBLED outcome (Table 2-7). -/
inductive Garble where
  | parity | framing | length | short | check | wrongSource | wrongKind
  deriving DecidableEq, Repr

/-- The outcome of an attempt (R54). ABORTED hands nothing on (R62) and needs no value. -/
inductive AttemptOutcome where
  | good
  | noReply
  | garbled (r : Garble)
  | lineFault
  deriving DecidableEq, Repr

/-- The kinds of upstream frame (Table 2-4). -/
inductive UpstreamKind where
  | status | join | accept | answer | relayed | released
  deriving DecidableEq, Repr

/-- The reply an attempt expects (Table 2-6): its source, its kind and, for an OFFER, its identity. -/
structure Expected where
  source   : TrunkAddress
  kind     : UpstreamKind
  identity : Option Identity
  deriving DecidableEq, Repr

/-- The in-flight transaction record (Table 3-3). `frame` holds the data bytes of the frame built at grant; its first
character carries flag 1 (R34). `address` is the captured address: for an OFFER the offered one. -/
structure Txn where
  kind        : TxnKind
  slot        : Option Slot
  identity    : Option Identity
  address     : TrunkAddress
  tag         : Option Byte
  frame       : List Byte
  expected    : Option Expected
  attempt     : Nat
  maxAttempts : Nat
  errorMap    : BitVec 11
  lastOutcome : Option AttemptOutcome
  reply       : Option (List Byte)
  deriving DecidableEq, Repr

/-- A received character with its error marks (R33). -/
structure RxChar where
  data         : Byte
  flag         : Bool
  parityError  : Bool
  framingError : Bool
  deriving DecidableEq, Repr

/-- A join bid as received (Table 2-4). -/
structure Join where
  identity : Identity
  cls      : Byte
  hint     : Byte
  deriving DecidableEq, Repr

/-- What has been heard in one sub-slot of the listen: how many frames, whether one failed, the last good JOIN (R47). -/
structure SubSlot where
  frames : Nat
  failed : Bool
  join   : Option Join
  deriving DecidableEq, Repr

/-- An empty sub-slot. -/
def SubSlot.reset : SubSlot := { frames := 0, failed := false, join := none }

/-- The result of one sub-slot (R47). -/
inductive SubSlotResult where
  | empty
  | join (j : Join)
  | collided
  deriving DecidableEq, Repr

/-- Frame reception within one wait (R33, R40, R45). Times are REFCLK periods since the wait opened.
`charBegan` is the beginning of the character in reception, `frameBegan` that of the frame's first character, `idleFrom`
the end of the last stop bit (0 before any), `chars` the frame so far, `subSlots` the listen's four sub-slots. -/
structure Reception where
  chars      : List RxChar
  charBegan  : Option Nat
  frameBegan : Nat
  idleFrom   : Nat
  subSlots   : Vector SubSlot 4
  deriving DecidableEq, Repr

/-- R49: no character and no frame in reception. -/
def Reception.reset : Reception :=
  { chars := [], charBegan := none, frameBegan := 0, idleFrom := 0, subSlots := Vector.replicate 4 SubSlot.reset }

/-- The fault-grace timer: RUNNING counts the ticks left, and SPENT is what it becomes as they run out (R68). -/
inductive Grace where
  | stopped
  | running (ticks : Nat)
  | spent
  deriving DecidableEq, Repr

/-- The Trunk Engine's state. `clock` counts the REFCLK periods of the present frame, or of the present wait and the guard that
follows it (R167, R168), and `guardFrom` is the beginning of the guard on that count (R44). `dropDue` says that the grace
timer has become SPENT and its fault drop has not been taken yet (R68). `pendingDisable` is the tag of the DISABLE that waits
(R61). -/
structure Engine where
  state          : EngineState
  txn            : Option Txn
  burst          : Nat
  grace          : Grace
  dropDue        : Bool
  collisions     : Half
  pendingDisable : Option Byte
  reception      : Reception
  clock          : Nat
  guardFrom      : Nat
  deriving DecidableEq, Repr

/-- R49, R72: OFF, nothing in flight, the counts 0, no DISABLE pending, the grace timer STOPPED. -/
def Engine.reset : Engine :=
  { state := .off, txn := none, burst := 0, grace := .stopped, dropDue := false, collisions := 0, pendingDisable := none,
    reception := Reception.reset, clock := 0, guardFrom := 0 }

/-! ### Timing Unit (chapter 08) -/

/-- The configuration record: the 22 parameters of Table 8-4, in the order of their identifiers. -/
structure Params where
  refclkKhz      : Nat
  bitDivider     : Nat
  oddStep        : Nat
  replyWait      : Nat
  guardTime      : Nat
  pollRetries    : Nat
  offerRetries   : Nat
  releaseRetries : Nat
  relayRetries   : Nat
  suspectAfter   : Nat
  lostAfter      : Nat
  leaseTerm      : Nat
  quarantineMin  : Nat
  autoReclaim    : Nat
  solicitPeriod  : Nat
  pollPeriod     : Nat
  censusStepMs   : Nat
  stepSource     : Nat
  windowSize     : Nat
  qualityLimit   : Nat
  faultGrace     : Nat
  relayBurst     : Nat
  deriving DecidableEq, Repr

/-- The defaults of Table 8-4 (R172). -/
def Params.default : Params :=
  { refclkKhz := 16000, bitDivider := 832, oddStep := 1, replyWait := 3, guardTime := 2, pollRetries := 1,
    offerRetries := 2, releaseRetries := 1, relayRetries := 1, suspectAfter := 2, lostAfter := 6, leaseTerm := 30,
    quarantineMin := 10, autoReclaim := 1, solicitPeriod := 2000, pollPeriod := 2000, censusStepMs := 100,
    stepSource := 0, windowSize := 16, qualityLimit := 0, faultGrace := 200, relayBurst := 4 }

/-- The Timing Unit's state: the tick prescaler (R165), the seconds count (R166), the three interval timers (R169) and the
configuration record (R172). A seconds count of 1000 is a strobe made and not yet taken, a timer at 0 an expiry not yet
taken: both stand only within one tick (log entry 5). -/
structure Timing where
  prescaler  : Nat
  seconds    : Nat
  pace       : Nat
  solicit    : Nat
  censusStep : Nat
  params     : Params
  deriving DecidableEq, Repr

/-- R165, R166, R169, R172: counts 0, each timer at its default period, every parameter at its default. -/
def Timing.reset : Timing :=
  { prescaler := 0, seconds := 0, pace := Params.default.pollPeriod, solicit := Params.default.solicitPeriod,
    censusStep := Params.default.censusStepMs, params := Params.default }

/-! ### Cause Unit (chapter 10) -/

/-- The Cause Unit's state: flags and enables by the bits of Table 10-1, and the Change Set as the reasons of each slot,
bit 0 STATE, bit 1 STATUS, bit 2 QUALITY; a slot is a member when its reasons are not 0 (R211). -/
structure Causes where
  flags   : Half
  enables : Half
  changes : Vector (BitVec 3) Config.slots
  deriving DecidableEq, Repr

/-- The Cause Unit while RST# is low: nothing set, nothing enabled, no member (R202, R215). -/
def Causes.held : Causes :=
  { flags := 0, enables := 0, changes := Vector.replicate Config.slots 0 }

/-! ### Host Port (chapter 09) -/

/-- The assembly state of a WRITE access (R183): `inFrame n got` has claimed `n` bytes and holds those got so far. -/
inductive Assembly where
  | expectLength
  | inFrame (n : Nat) (got : List Byte)
  | skip (m : Nat)
  | discard
  deriving DecidableEq, Repr

/-- The byte being shifted out in a READ_RESPONSE access, chosen when it begins (R187). -/
inductive ResponseByte where
  | head (b : Byte)
  | filler
  deriving DecidableEq, Repr

/-- The access state (Table 9-1). In a read of responses, `spent` says that a RESET was taken during the access, which then
sends filler bytes to its end (R203); in a read of the status, `record` is what is still to send of the record captured
(R188). -/
inductive Access where
  | ready
  | select
  | write (a : Assembly)
  | readResponse (out : Option ResponseByte) (spent : Bool)
  | readStatus (record : List Byte)
  | ignore
  deriving DecidableEq, Repr

/-- An entry of the Request FIFO: a whole frame with all its bytes, or a bad-frame marker (R184, R186). -/
inductive ReqEntry where
  | frame (bytes : List Byte)
  | marker (b : Byte)
  deriving DecidableEq, Repr

/-- The Host Port's state: the access state, both FIFOs from the head, and the bytes reserved for deferred responses
(R181, R184, R189, R192). -/
structure HostPort where
  access    : Access
  requests  : List ReqEntry
  responses : List Byte
  reserved  : Nat
  deriving DecidableEq, Repr

/-- R181, R184, R189, R192: READY with CS# high, both FIFOs empty, nothing reserved. -/
def HostPort.reset : HostPort :=
  { access := .ready, requests := [], responses := [], reserved := 0 }

/-! ### Pins -/

/-- The levels of the inputs the part takes by level: RST# low, CS# low, TRUNK_FAULT high (1.5, R65, R181, R202). -/
structure Pins where
  rstLow : Bool
  csLow  : Bool
  fault  : Bool
  deriving DecidableEq, Repr

end Sys2Proof.Machine
end

