-- ==== Sys2Proof/Machine/State.lean ====
section
/-! DEFINITION. The whole state of the part, block by block (1.2), with the queue of the commands that wait; why a step can
stop; and the state right after reset. -/
namespace Sys2Proof.Machine

/-- Why the part stops with a fault. It never does: the spec gives every event an effect in every state, or none (log entry
4), so no meaning raises a fault and the type has no constructor. -/
inductive Fault where
  deriving DecidableEq, Repr

/-- Why a command is refused. -/
inductive Refusal where
  /-- A row of the table that has no meaning yet; raised by an arm of `exec` only, and by none of them now. Safe: it stops
  the machine where the part goes on. -/
  | notModelled (mnemonic : String)
  deriving DecidableEq, Repr

/-- Everything the spec gives the part, and `pending`, the commands that wait, first in, first out. -/
structure State where
  pins     : Pins
  host     : HostPort
  table    : LeaseTable
  enrol    : Enrolment
  poll     : Scheduler
  census   : Census
  releases : List Release
  relays   : List Relay
  engine   : Engine
  timing   : Timing
  causes   : Causes
  pending  : List Instr
  deriving DecidableEq, Repr

/-- Every block at the value it is held at while RST# is low (R202), with the pins and the waiting commands given. -/
def State.held (pins : Pins) (pending : List Instr) : State :=
  { pins := pins, host := HostPort.reset, table := LeaseTable.reset, enrol := Enrolment.reset, poll := Scheduler.reset,
    census := Census.reset, releases := [], relays := [], engine := Engine.reset, timing := Timing.reset,
    causes := Causes.held, pending := pending }

/-- The part right after RST# has risen with CS# high and TRUNK_FAULT low: every block at its reset value and RESTARTED, bit
0 of the cause flags, set (R202, R215). The two pin levels are the model's choice (log entry 6). -/
def State.reset : State :=
  { pins := { rstLow := false, csLow := false, fault := false }, host := HostPort.reset, table := LeaseTable.reset,
    enrol := Enrolment.reset, poll := Scheduler.reset, census := Census.reset, releases := [], relays := [],
    engine := Engine.reset, timing := Timing.reset, causes := { Causes.held with flags := 1 }, pending := [] }

end Sys2Proof.Machine
end

