-- ==== Sys2Proof/Machine/Operands.lean ====
section
/-! DEFINITION. What travels on the host port and the trunk as bytes: byte order (1.10), slots and addresses, the request
catalogue with its codes and maximum response sizes (Tables 9-3 and 9-6), the result codes (Table 9-5) and the value codes
(Table 9-7). -/
namespace Sys2Proof.Machine

/-! ### Byte order: low byte first (1.10) -/

/-- A number as one byte. -/
def byteOf (n : Nat) : Byte := BitVec.ofNat 8 n

/-- A mark: 0 clear, 1 set (Table 9-7). -/
def markByte (b : Bool) : Byte := if b then 1 else 0

/-- The two bytes of a 16-bit word, low byte first. -/
def halfBytes (w : Half) : List Byte := [w.extractLsb' 0 8, w.extractLsb' 8 8]

/-- A number as two bytes, low byte first. -/
def natBytes (n : Nat) : List Byte := halfBytes (BitVec.ofNat 16 n)

/-- The 16-bit word of a low and a high byte. -/
def halfOf (lo hi : Byte) : Half := hi ++ lo

/-- The six bytes of an identity, least significant first (Table 9-6, R34). -/
def identityBytes (x : Identity) : List Byte :=
  [x.extractLsb' 0 8, x.extractLsb' 8 8, x.extractLsb' 16 8, x.extractLsb' 24 8, x.extractLsb' 32 8, x.extractLsb' 40 8]

/-- The identity of six bytes, least significant first. -/
def identityOf (b0 b1 b2 b3 b4 b5 : Byte) : Identity := b5 ++ b4 ++ b3 ++ b2 ++ b1 ++ b0

/-- One bit of a mask, by its number. -/
def maskBit (b : Bool) (i : Nat) : Nat := if b then 2 ^ i else 0

/-! ### Slots and addresses -/

/-- The slots 0 to 63, ascending. -/
def allSlots : List Slot := List.finRange Config.slots

/-- The leased addresses 1 to 126, ascending. -/
def allAddresses : List Address := List.finRange Config.addresses

/-- The slot a byte names, none outside 0..63. -/
def slotOf (b : Byte) : Option Slot := if h : b.toNat < Config.slots then some ⟨b.toNat, h⟩ else none

/-- A slot as a byte. -/
def slotByte (n : Slot) : Byte := byteOf n.val

/-- The number 1..126 of an address. -/
def addressNumber (a : Address) : Nat := a.val + 1

/-- The address of a number, none outside 1..126. -/
def addressOfNat (n : Nat) : Option Address := if h : 1 ≤ n ∧ n ≤ 126 then some ⟨n - 1, show n - 1 < 126 by omega⟩ else none

/-- The address a byte names, none outside 1..126 (R8). -/
def addressOf (b : Byte) : Option Address := addressOfNat b.toNat

/-- An address as a byte. -/
def addressByte (a : Address) : Byte := byteOf (addressNumber a)

/-! ### The request catalogue -/

/-- The requests of Table 9-3. -/
inductive Request where
  | echo | readEngine | configure | readConfig | trunkControl | reset | causeControl | readCauses | readChanges | readSlot
  | lookupIdentity | lookupAddress | setFields | pin | retire | ringMove | setEnrolMode | admitAdd | admitRemove
  | admitClear | admitRead | pollControl | pollRound | censusStart | censusStop | censusStep | censusStatus | relay
  | relayCancel
  deriving DecidableEq, Repr

/-- The request code (Table 9-3). -/
def Request.code : Request → Byte
  | .echo => 0x01 | .readEngine => 0x02 | .configure => 0x03 | .readConfig => 0x04 | .trunkControl => 0x05 | .reset => 0x06
  | .causeControl => 0x08 | .readCauses => 0x09 | .readChanges => 0x0A
  | .readSlot => 0x10 | .lookupIdentity => 0x11 | .lookupAddress => 0x12 | .setFields => 0x13 | .pin => 0x14
  | .retire => 0x15 | .ringMove => 0x16
  | .setEnrolMode => 0x18 | .admitAdd => 0x19 | .admitRemove => 0x1A | .admitClear => 0x1B | .admitRead => 0x1C
  | .pollControl => 0x20 | .pollRound => 0x21
  | .censusStart => 0x24 | .censusStop => 0x25 | .censusStep => 0x26 | .censusStatus => 0x27
  | .relay => 0x28 | .relayCancel => 0x29

/-- The catalogue in the order of Table 9-3. -/
def Request.all : List Request :=
  [.echo, .readEngine, .configure, .readConfig, .trunkControl, .reset, .causeControl, .readCauses, .readChanges, .readSlot,
   .lookupIdentity, .lookupAddress, .setFields, .pin, .retire, .ringMove, .setEnrolMode, .admitAdd, .admitRemove,
   .admitClear, .admitRead, .pollControl, .pollRound, .censusStart, .censusStop, .censusStep, .censusStatus, .relay,
   .relayCancel]

/-- The request of a code, none for a code that is not in the catalogue (R193). -/
def Request.ofCode (b : Byte) : Option Request := Request.all.find? (fun r => r.code == b)

/-- The maximum response size of a request in a frame of `n` bytes (Table 9-6); for ECHO it is `n + 1`. -/
def Request.maxResponse (r : Request) (n : Nat) : Nat :=
  match r with
  | .echo => n + 1 | .readEngine => 15 | .configure => 9 | .readConfig => 38 | .trunkControl => 5 | .reset => 4
  | .causeControl => 8 | .readCauses => 8 | .readChanges => 30 | .readSlot => 36 | .lookupIdentity => 14
  | .lookupAddress => 22 | .setFields => 10 | .pin => 5 | .retire => 11 | .ringMove => 6 | .setEnrolMode => 8
  | .admitAdd => 6 | .admitRemove => 6 | .admitClear => 5 | .admitRead => 11 | .pollControl => 9 | .pollRound => 8
  | .censusStart => 7 | .censusStop => 5 | .censusStep => 7 | .censusStatus => 15 | .relay => 18 | .relayCancel => 5

/-! ### Result codes (Table 9-5) -/

/-- The results of Table 9-5. -/
inductive Result where
  | ok | busy | notFound | full | badArg | badState | duplicate | addressBusy | notBound | noReply | garbled | lineFault
  | cancelled | tooLate | badFrame | unknownRequest
  deriving DecidableEq, Repr

/-- The code of a result (Table 9-5). -/
def Result.code : Result → Byte
  | .ok => 0x00 | .busy => 0x01 | .notFound => 0x02 | .full => 0x03 | .badArg => 0x04 | .badState => 0x05
  | .duplicate => 0x06 | .addressBusy => 0x07 | .notBound => 0x08 | .noReply => 0x09 | .garbled => 0x0A
  | .lineFault => 0x0B | .cancelled => 0x0C | .tooLate => 0x0D | .badFrame => 0x0E | .unknownRequest => 0x0F

/-! ### Value codes (Table 9-7) -/

/-- Lease state of a lease that is not FREE. -/
def LeaseStatus.code : LeaseStatus → Byte
  | .reserved => 1 | .offered _ => 2 | .bound _ _ => 3 | .suspect _ _ => 4 | .lost _ => 5 | .releasing _ => 6

/-- Lease state of a slot, FREE included. -/
def leaseCode : Option Lease → Byte
  | none => 0
  | some l => l.status.code

/-- Origin. -/
def Origin.code : Origin → Byte
  | .joined => 0 | .adopted => 1 | .pinned => 2

/-- offer_prior. -/
def Prior.code : Prior → Byte
  | .fresh => 0 | .reserved => 1 | .lost => 2

/-- Entry condition. -/
def AddrEntry.code : AddrEntry → Byte
  | .free => 0 | .quarantined _ => 1 | .held _ => 2

/-- The seconds of a QUARANTINED entry, 0 otherwise. -/
def AddrEntry.seconds : AddrEntry → Nat
  | .quarantined n => n
  | _ => 0

/-- Engine state. -/
def EngineState.code : EngineState → Byte
  | .off => 0 | .idle => 1 | .send => 2 | .listen => 3 | .receive => 4 | .guarding => 5 | .held => 6

/-- In-flight kind of a transaction. -/
def TxnKind.code : TxnKind → Byte
  | .poll => 1 | .solicit => 2 | .offer => 3 | .release => 4 | .probe => 5 | .relay => 6

/-- GARBLED reason. -/
def Garble.code : Garble → Byte
  | .parity => 1 | .framing => 2 | .length => 3 | .short => 4 | .check => 5 | .wrongSource => 6 | .wrongKind => 7

/-- Enrolment mode. -/
def EnrolMode.code : EnrolMode → Byte
  | .closed => 0 | .listed => 1 | .opened => 2

/-- The enrolment mode a byte names. -/
def EnrolMode.ofCode (b : Byte) : Option EnrolMode :=
  if b = 0 then some .closed else if b = 1 then some .listed else if b = 2 then some .opened else none

/-- Poll mode. -/
def PollMode.code : PollMode → Byte
  | .off => 0 | .continuous => 1 | .paced => 2 | .single => 3

/-- The poll mode a byte names. -/
def PollMode.ofCode (b : Byte) : Option PollMode :=
  if b = 0 then some .off else if b = 1 then some .continuous else if b = 2 then some .paced
  else if b = 3 then some .single else none

/-- Scheduler state. -/
def SchedulerState.code : SchedulerState → Byte
  | .off => 0 | .wait => 1 | .round => 2

/-- Census mode. -/
def CensusMode.code : CensusMode → Byte
  | .onceR => 0 | .once => 1 | .continuous => 2 | .stepped => 3

/-- The census mode a byte names. -/
def CensusMode.ofCode (b : Byte) : Option CensusMode :=
  if b = 0 then some .onceR else if b = 1 then some .once else if b = 2 then some .continuous
  else if b = 3 then some .stepped else none

/-- Census state. -/
def CensusState.code : CensusState → Byte
  | .idle => 0 | .running => 1 | .waitStep => 2

/-- The relay target a byte names: 0..63 a slot, FEh BROADCAST. -/
def RelayTarget.ofCode (b : Byte) : Option RelayTarget :=
  if b = 0xFE then some .broadcast else (slotOf b).map .slot

/-- The retries byte of a RELAY: 0..3, or FFh (`some none`) for RELAY_RETRIES at grant. -/
def retriesOf (b : Byte) : Option (Option Nat) :=
  if b = 0xFF then some none else if b.toNat ≤ 3 then some (some b.toNat) else none

/-- A byte that must be 0 or 1. -/
def bitOf (b : Byte) : Option Bool :=
  if b = 0 then some false else if b = 1 then some true else none

/-! ### Request frames (Table 9-4) -/

/-- The request code of a whole frame. -/
def frameCode (bytes : List Byte) : Byte := bytes.getD 1 0
/-- The tag of a whole frame. -/
def frameTag (bytes : List Byte) : Byte := bytes.getD 2 0
/-- The argument bytes of a whole frame. -/
def frameArgs (bytes : List Byte) : List Byte := bytes.drop 3

/-- The bytes of the Request FIFO an entry occupies (R183, R186). -/
def ReqEntry.size : ReqEntry → Nat
  | .frame bytes => bytes.length
  | .marker _ => 1

/-- The maximum response size of an entry (R191): 5 for a marker, 4 for a code that is not in the catalogue. -/
def ReqEntry.maxResponse : ReqEntry → Nat
  | .marker _ => 5
  | .frame bytes =>
    match Request.ofCode (frameCode bytes) with
    | some r => r.maxResponse bytes.length
    | none => 4

/-- The row of the table whose event takes a frame of a catalogue request. TRUNK_CONTROL and RETIRE are split over rows by
their action and mode; a frame of theirs that is answered BAD_ARG by R60, R21 or R193 before that argument is read goes to
ENABLE and to RETIRE_FORCED, so that every frame has exactly one row (log entry 2). -/
def Request.row (r : Request) (args : List Byte) : Instr :=
  match r with
  | .echo => .echo | .readEngine => .readEngine | .configure => .configure | .readConfig => .readConfig
  | .trunkControl => if args = [2] then .disable else if args = [3] then .resetTrunk else .enable
  | .reset => .reset | .causeControl => .causeControl | .readCauses => .readCauses | .readChanges => .readChanges
  | .readSlot => .readSlot | .lookupIdentity => .lookupIdentity | .lookupAddress => .lookupAddress
  | .setFields => .setFields | .pin => .pin
  | .retire => if args.length = 2 ∧ args.getD 1 1 = 0 then .retireGraceful else .retireForced
  | .ringMove => .ringMove | .setEnrolMode => .setEnrolMode | .admitAdd => .admitAdd | .admitRemove => .admitRemove
  | .admitClear => .admitClear | .admitRead => .admitRead | .pollControl => .pollControl | .pollRound => .pollRound
  | .censusStart => .censusStart | .censusStop => .censusStop | .censusStep => .censusStep
  | .censusStatus => .censusStatus | .relay => .relay | .relayCancel => .relayCancel

/-- The row of the table whose event takes an entry of the Request FIFO (R193). -/
def ReqEntry.row : ReqEntry → Instr
  | .marker _ => .badFrame
  | .frame bytes =>
    match Request.ofCode (frameCode bytes) with
    | some r => r.row (frameArgs bytes)
    | none => .unknownRequest

end Sys2Proof.Machine
end

