-- ==== Sys2Proof/Machine/Flags.lean ====
section
/-! DEFINITION. The cause flags, the enables, HINT# and the Change Set (chapter 10). -/
namespace Sys2Proof.Machine

/-- The sixteen causes (Table 10-1). -/
inductive Cause where
  | restarted | responseReady | changes | roundDone | paceOverrun | censusDone | clash | conflict | tableFull | poolEmpty
  | refused | poorLine | lineFault | faultDrop | reqOverrun | engineOff
  deriving DecidableEq, Repr

/-- The bit number of a cause (Table 10-1). -/
def Cause.bit : Cause → Nat
  | .restarted => 0 | .responseReady => 1 | .changes => 2 | .roundDone => 3 | .paceOverrun => 4 | .censusDone => 5
  | .clash => 6 | .conflict => 7 | .tableFull => 8 | .poolEmpty => 9 | .refused => 10 | .poorLine => 11 | .lineFault => 12
  | .faultDrop => 13 | .reqOverrun => 14 | .engineOff => 15

/-- The flag word in which a cause stands alone. -/
def Cause.mask (c : Cause) : Half := BitVec.twoPow 16 c.bit

/-- A cause's event sets its flag; a flag already set stays set (R204). -/
def State.raise (c : Cause) (s : State) : State :=
  { s with causes := { s.causes with flags := s.causes.flags ||| c.mask } }

/-- Whether a cause's flag is set. -/
def State.flag (s : State) (c : Cause) : Bool := s.causes.flags.getLsbD c.bit

/-- HINT# is driven low exactly when some cause is both set and enabled, and is released while RST# is low (R207). It is
computed, not stored: it follows the flags and enables in the same change. -/
def State.hintLow (s : State) : Bool := !s.pins.rstLow && (s.causes.flags &&& s.causes.enables != 0)

/-- The reasons of the Change Set (Table 10-2, Table 9-7). -/
inductive Reason where
  | state | status | quality
  deriving DecidableEq, Repr

/-- The bit of a reason (Table 9-7). -/
def Reason.mask : Reason → BitVec 3
  | .state => 1 | .status => 2 | .quality => 4

/-- Writes the reasons a slot carries in the Change Set; 0 makes it no member. -/
def State.setReasons (n : Slot) (r : BitVec 3) (s : State) : State :=
  { s with causes := { s.causes with changes := s.causes.changes.set n.val r n.isLt } }

/-- A slot is handed to the Change Set with a reason: the reason is added to those it has, and CHANGES is set (R211). -/
def State.handOver (n : Slot) (r : Reason) (s : State) : State :=
  (s.setReasons n (s.causes.changes[n] ||| r.mask)).raise .changes

/-- The members of the Change Set in ascending slot order (R211, R213). -/
def State.changeSet (s : State) : List Slot := allSlots.filter (fun n => s.causes.changes[n] != 0)

/-- Removes slots from the Change Set (R213). -/
def State.removeChanges (ns : List Slot) (s : State) : State :=
  ns.foldl (fun t n => t.setReasons n 0) s

end Sys2Proof.Machine
end

