-- ==== Sys2Proof/Machine/Ops.lean ====
section
/-! DEFINITION. The operations that more than one command uses: the events of a part that is out of reset, the take of a
request and the writing of its response, the lease records and the Address Map, the Poll Ring and its walk, and the quality
windows. -/
namespace Sys2Proof.Machine

/-- The parameters as configured now (R172). -/
def State.params (s : State) : Params := s.timing.params

/-- An event of the part. While RST# is low every block is held at its reset value and no event is taken (R202). -/
def whenRunning (f : State → State) (s : State) : Host.Outcome State Fault Refusal :=
  if s.pins.rstLow then .next s else .next (f s)

/-! ### Responses (9.3, 9.4) -/

/-- A response frame: length, request code, tag, result, data (R190, Table 9-4). -/
def responseFrame (code tag : Byte) (r : Result) (data : List Byte) : List Byte :=
  byteOf (data.length + 4) :: code :: tag :: r.code :: data

/-- Bytes go to the tail of the Response FIFO (R189). -/
def State.append (bytes : List Byte) (s : State) : State :=
  { s with host := { s.host with responses := s.host.responses ++ bytes } }

/-- A response frame is appended whole and RESPONSE_READY is set (R189, R205). -/
def State.respond (code tag : Byte) (r : Result) (data : List Byte) (s : State) : State :=
  (s.append (responseFrame code tag r data)).raise .responseReady

/-- The immediate response of a catalogue request: its reservation lasts no longer than the take's own change (R192). -/
def State.answer (q : Request) (tag : Byte) (r : Result) (data : List Byte) (s : State) : State :=
  s.respond q.code tag r data

/-- The bytes a deferred request keeps reserved: the whole maximum response size (R192). -/
def Request.reservation (q : Request) : Nat := q.maxResponse 0

/-- A request becomes deferred and keeps its reservation (R192). -/
def State.defer (q : Request) (s : State) : State :=
  { s with host := { s.host with reserved := s.host.reserved + q.reservation } }

/-- A deferred response is written into its reservation, which ends (R164, R192). -/
def State.settle (q : Request) (tag : Byte) (r : Result) (data : List Byte) (s : State) : State :=
  let t := s.respond q.code tag r data
  { t with host := { t.host with reserved := t.host.reserved - q.reservation } }

/-- The response space available (R191). -/
def State.space (s : State) : Nat := Config.responseFifo - s.host.responses.length - s.host.reserved

/-- Whether an entry at the head can be taken: the space suffices, or it is a RESET request with no arguments (R191). -/
def State.fits (s : State) (e : ReqEntry) : Bool :=
  decide (e.maxResponse ≤ s.space) ||
    match e with
    | .frame bytes => decide (bytes.length = 3 ∧ Request.ofCode (frameCode bytes) = some .reset)
    | .marker _ => false

/-- The Dispatcher's take (R191, R193): when the head of the Request FIFO is an entry of this row and its space suffices, it
leaves the FIFO and is handed on in the same event. Otherwise the event has not come and nothing changes (log entry 4). -/
def takeHead (row : Instr) (handle : ReqEntry → State → State) (s : State) : Host.Outcome State Fault Refusal :=
  whenRunning (fun s =>
    match s.host.requests with
    | [] => s
    | e :: rest =>
      if e.row = row ∧ s.fits e = true then handle e { s with host := { s.host with requests := rest } } else s) s

/-- The take of a request frame: its tag and its argument bytes are handed to the owner (R193). -/
def takeRequest (row : Instr) (handle : Byte → List Byte → State → State) (s : State) :
    Host.Outcome State Fault Refusal :=
  takeHead row (fun e t =>
    match e with
    | .frame bytes => handle (frameTag bytes) (frameArgs bytes) t
    | .marker _ => t) s

/-! ### Lease records and the Address Map (chapter 01) -/

/-- The record in a slot, none when it is FREE. -/
def State.lease (s : State) (n : Slot) : Option Lease := s.table.slots[n]

/-- The Address Map entry of an address. -/
def State.entry (s : State) (a : Address) : AddrEntry := s.table.map[a]

/-- Writes the record of a slot. -/
def State.putLease (n : Slot) (l : Option Lease) (s : State) : State :=
  { s with table := { s.table with slots := s.table.slots.set n.val l n.isLt } }

/-- Writes the Address Map entry of an address. -/
def State.putEntry (a : Address) (e : AddrEntry) (s : State) : State :=
  { s with table := { s.table with map := s.table.map.set a.val e a.isLt } }

/-- The entry that a quarantine of `q` seconds gives: FREE when it is 0 (R9). -/
def quarantineEntry (q : Nat) : AddrEntry := if q = 0 then .free else .quarantined q

/-- The census quarantine: lengthened, never shortened, and a HELD entry is not changed (R10). -/
def lengthenEntry (q : Nat) : AddrEntry → AddrEntry
  | .free => quarantineEntry q
  | .quarantined n => if q ≤ n then .quarantined n else .quarantined q
  | .held n => .held n

/-- The slot whose lease holds an identity (R4, R26). -/
def State.findIdentity (s : State) (x : Identity) : Option Slot :=
  allSlots.find? (fun n => match s.lease n with | some l => l.identity == x | none => false)

/-- The lowest-numbered FREE slot (R5). -/
def State.freeSlot (s : State) : Option Slot := allSlots.find? (fun n => (s.lease n).isNone)

/-- The address for a new offer: the hint when it is FREE, otherwise the lowest FREE address, otherwise none (R11). -/
def State.chooseAddress (s : State) (hint : Byte) : Option Address :=
  let lowest := allAddresses.find? (fun a => s.entry a == .free)
  match addressOf hint with
  | some a => if s.entry a = .free then some a else lowest
  | none => lowest

/-- A record as it is filled when a slot leaves FREE (R2). -/
def newLease (status : LeaseStatus) (x : Identity) (a : Address) (cls : Option Byte) (o : Origin) : Lease :=
  { status := status, identity := x, address := a, cls := cls, origin := o, cadence := 1, cadenceCount := 1,
    lastStatus := none, label := none, windowAttempts := 0, windowBad := 0, lastWindowBad := none, windowsClosed := 0,
    poor := false }

/-- A new lease takes a slot and its address in one change (R2, R5, R6, R8). -/
def State.createLease (n : Slot) (l : Lease) (s : State) : State :=
  ((s.putLease n (some l)).putEntry l.address (.held n)).handOver n .state

/-- A lease takes a new state, and its slot is handed over with STATE (R6). -/
def State.changeStatus (n : Slot) (l : Lease) (st : LeaseStatus) (s : State) : State :=
  (s.putLease n (some { l with status := st })).handOver n .state

/-- A lease becomes FREE and its address takes a quarantine of `q` seconds, in one change (R3, R9). -/
def State.vacate (n : Slot) (l : Lease) (q : Nat) (s : State) : State :=
  ((s.putLease n none).putEntry l.address (quarantineEntry q)).handOver n .state

/-- The lease a completion finds, when it still holds the captured identity and address (R7). -/
def State.matched (s : State) (n : Slot) (x : Identity) (a : TrunkAddress) : Option Lease :=
  match s.lease n with
  | some l => if l.identity = x ∧ TrunkAddress.station l.address = a then some l else none
  | none => none

/-- The quarantine of a term: LEASE_TERM×4 + QUARANTINE_MIN (R9, R24, R93). -/
def State.offerQuarantine (s : State) : Nat := s.params.leaseTerm * 4 + s.params.quarantineMin

/-! ### The Poll Ring and its walk (5.1, 5.2) -/

/-- Whether a slot is a member of the Poll Ring. -/
def State.inRing (s : State) (n : Slot) : Bool := s.poll.ring.any (fun m => m.slot == n)

/-- Writes the scheduler's state. -/
def State.setScheduler (st : SchedulerState) (s : State) : State := { s with poll := { s.poll with state := st } }

/-- Clears every visited mark. -/
def State.clearMarks (s : State) : State :=
  { s with poll := { s.poll with ring := s.poll.ring.map (fun m => { m with visited := false }) } }

/-- Sets the visited mark of a slot, if it is a member. -/
def State.markVisited (n : Slot) (s : State) : State :=
  { s with poll := { s.poll with ring := s.poll.ring.map (fun m => if m.slot = n then { m with visited := true } else m) } }

/-- Writes a lease's cadence_count. -/
def State.setCadenceCount (n : Slot) (l : Lease) (c : Nat) (s : State) : State :=
  s.putLease n (some { l with cadenceCount := c })

/-- A member becomes the pending poll, not yet granted (R105). -/
def State.namePoll (n : Slot) (s : State) : State :=
  { s with poll := { s.poll with pending := some { slot := n, inFlight := false } } }

/-- The walk over the members in ring order (R105): a member whose mark is clear is passed with its cadence_count reduced,
or becomes the pending poll with its cadence_count reloaded. Answers whether a poll was named. -/
def State.visit : List RingMember → State → State × Bool
  | [], s => (s, false)
  | m :: ms, s =>
    if m.visited then s.visit ms
    else
      match s.lease m.slot with
      | none => (s.markVisited m.slot).visit ms
      | some l =>
        if l.cadenceCount ≤ 1 then ((s.setCadenceCount m.slot l l.cadence).namePoll m.slot, true)
        else ((s.setCadenceCount m.slot l (l.cadenceCount - 1)).markVisited m.slot).visit ms

/-- The round end's own effects: ROUND_DONE and the round count (R107). -/
def State.countRound (s : State) : State :=
  State.raise .roundDone { s with poll := { s.poll with rounds := s.poll.rounds + 1 } }

/-- A walk step, with the rounds that CONTINUOUS begins in the same event (R105, R107). `fuel` bounds those rounds: each
brings every cadence_count of 2 or more one nearer to 1. -/
def State.walk : Nat → State → State
  | 0, s =>
    match s.visit s.poll.ring with
    | (t, true) => t
    | (t, false) => t.countRound.setScheduler .wait
  | fuel + 1, s =>
    match s.visit s.poll.ring with
    | (t, true) => t
    | (t, false) =>
      if t.poll.mode = .continuous ∧ t.poll.ring ≠ [] then (t.countRound.clearMarks.setScheduler .round).walk fuel
      else t.countRound.setScheduler .wait

/-- The rounds in which a due member must appear: the greatest cadence_count of a member (R107). -/
def State.roundBound (s : State) : Nat :=
  s.poll.ring.foldl (fun b m => match s.lease m.slot with | some l => max b l.cadenceCount | none => b) 1

/-- A walk step (R105). -/
def State.walkStep (s : State) : State := s.walk s.roundBound

/-- A walk step is taken whenever the state is ROUND and no pending poll stands (R105): the end of every change that may
have brought this about. -/
def State.pollSettle (s : State) : State :=
  if s.poll.state = .round ∧ s.poll.pending = none then s.walkStep else s

/-- A round begins: the marks are cleared, the state becomes ROUND, and a walk step follows (R104). -/
def State.beginRound (s : State) : State := (s.clearMarks.setScheduler .round).walkStep

/-- A slot is appended to the ring with its mark clear (R99); in CONTINUOUS and WAIT a round begins (R108). -/
def State.joinRing (n : Slot) (s : State) : State :=
  let t := { s with poll := { s.poll with ring := s.poll.ring ++ [{ slot := n, visited := false }] } }
  if t.poll.mode = .continuous ∧ t.poll.state = .wait then t.beginRound else t

/-- A slot leaves the ring, and a pending poll of it that has not been granted is withdrawn (R99, R100). The walk step that
may follow is `pollSettle` at the end of the change. -/
def State.leaveRing (n : Slot) (s : State) : State :=
  { s with poll := { s.poll with
      ring := s.poll.ring.filter (fun m => m.slot ≠ n)
      pending := if s.poll.pending = some { slot := n, inFlight := false } then none else s.poll.pending } }

/-! ### Losing a lease -/

/-- A BOUND or SUSPECT lease becomes LOST with a quarantine, and leaves the ring (R6, R14, R69, R117). -/
def State.loseLease (n : Slot) (l : Lease) (q : Nat) (s : State) : State :=
  (s.changeStatus n l (.lost q)).leaveRing n

/-! ### The Offer List (4.5) -/

/-- Takes the entry of a slot out of the Offer List (R90). -/
def State.dropOffer (n : Slot) (s : State) : State :=
  { s with enrol := { s.enrol with offers := s.enrol.offers.filter (fun o => o.slot ≠ n) } }

/-- An OFFERED lease goes back as its prior gives, with quarantine `q` (R93, Table 4-3; R63; R69). -/
def State.abandonOffer (n : Slot) (q : Nat) (s : State) : State :=
  match s.lease n with
  | none => s.dropOffer n
  | some l =>
    match l.status with
    | .offered .fresh => (s.vacate n l q).dropOffer n
    | .offered .reserved => (s.changeStatus n l .reserved).dropOffer n
    | .offered .lost => (s.changeStatus n l (.lost q)).dropOffer n
    | _ => s.dropOffer n

/-! ### Quality windows (5.4) -/

/-- Counts one attempt in the window of the captured lease, under R7 (R120), and closes the window when it is full (R121),
deciding poor anew (R122). -/
def State.countAttempt (n : Slot) (x : Identity) (a : TrunkAddress) (bad : Bool) (s : State) : State :=
  match s.matched n x a with
  | none => s
  | some l =>
    let attempts := l.windowAttempts + 1
    let bads := if bad then l.windowBad + 1 else l.windowBad
    if attempts = s.params.windowSize then
      let poor := decide (s.params.qualityLimit ≠ 0 ∧ s.params.qualityLimit < bads)
      let t := s.putLease n (some { l with windowAttempts := 0, windowBad := 0, lastWindowBad := some bads,
                                           windowsClosed := l.windowsClosed + 1, poor := poor })
      let t := if poor = l.poor then t else t.handOver n .quality
      if poor && !l.poor then t.raise .poorLine else t
    else s.putLease n (some { l with windowAttempts := attempts, windowBad := bads })

end Sys2Proof.Machine
end

