-- ==== Sys2Proof/Machine/CauseRequests.lean ====
section
/-! DEFINITION. The requests of the Cause Unit (chapter 10): CAUSE_CONTROL, READ_CAUSES and READ_CHANGES. -/
namespace Sys2Proof.Machine

/-- The flags and enables, as READ_CAUSES and CAUSE_CONTROL report them (Table 9-6). -/
def State.causeData (s : State) : List Byte := halfBytes s.causes.flags ++ halfBytes s.causes.enables

/-- The change a CAUSE_CONTROL makes: selected enables take their bits, and with `clear` selected flags are cleared (R208). -/
def State.controlCauses (select bits : Half) (clear : Bool) (s : State) : State :=
  { s with causes := { s.causes with
      enables := (s.causes.enables &&& ~~~select) ||| (bits &&& select)
      flags := if clear then s.causes.flags &&& ~~~select else s.causes.flags } }

/-- The response of a CAUSE_CONTROL: its append sets RESPONSE_READY, but not when the request itself selected and cleared that
flag (R205). -/
def State.answerControl (select : Half) (clear : Bool) (tag : Byte) (s : State) : State :=
  if clear && select.getLsbD Cause.responseReady.bit then
    s.append (responseFrame Request.causeControl.code tag .ok s.causeData)
  else s.answer .causeControl tag .ok s.causeData

/-- CAUSE_CONTROL (R208). -/
def causeControlRequest (tag : Byte) (args : List Byte) (s : State) : State :=
  match args with
  | [s0, s1, e0, e1, c] =>
    match bitOf c with
    | none => s.answer .causeControl tag .badArg []
    | some clear => (s.controlCauses (halfOf s0 s1) (halfOf e0 e1) clear).answerControl (halfOf s0 s1) clear tag
  | _ => s.answer .causeControl tag .badArg []

/-- READ_CAUSES (R210). -/
def readCausesRequest (tag : Byte) (args : List Byte) (s : State) : State :=
  match args with
  | [] => s.answer .readCauses tag .ok s.causeData
  | _ => s.answer .readCauses tag .badArg []

/-- The entry of a member in a READ_CHANGES response: slot, reasons, lease state (R213). -/
def State.changeEntry (s : State) (n : Slot) : List Byte :=
  [slotByte n, (s.causes.changes[n]).setWidth 8, leaseCode (s.lease n)]

/-- CHANGES is cleared when the Change Set is left empty (R213). -/
def State.clearChanges (s : State) : State :=
  if s.changeSet.isEmpty then
    { s with causes := { s.causes with flags := s.causes.flags &&& ~~~Cause.changes.mask } }
  else s

/-- READ_CHANGES (R213). -/
def readChangesRequest (tag : Byte) (args : List Byte) (s : State) : State :=
  match args with
  | [m] =>
    if 1 ≤ m.toNat ∧ m.toNat ≤ 8 then
      let taken := s.changeSet.take m.toNat
      let t := (s.removeChanges taken).clearChanges
      t.answer .readChanges tag .ok
        ([byteOf taken.length, byteOf t.changeSet.length] ++ (taken.map s.changeEntry).flatten)
    else s.answer .readChanges tag .badArg []
  | _ => s.answer .readChanges tag .badArg []

/-- CAUSE_CONTROL is taken (R208). -/
def execCauseControl (s : State) : Host.Outcome State Fault Refusal := takeRequest .causeControl causeControlRequest s
/-- READ_CAUSES is taken (R210). -/
def execReadCauses (s : State) : Host.Outcome State Fault Refusal := takeRequest .readCauses readCausesRequest s
/-- READ_CHANGES is taken (R213). -/
def execReadChanges (s : State) : Host.Outcome State Fault Refusal := takeRequest .readChanges readChangesRequest s

end Sys2Proof.Machine
end

