-- ==== Sys2Proof/Machine/LeaseRequests.lean ====
section
/-! DEFINITION. The requests of the Lease Table (1.5, 1.7): PIN, the look-ups and SET_FIELDS, with the READ_SLOT record and
the lease summary (Tables 9-8 and 9-9). -/
namespace Sys2Proof.Machine

/-! ### Fields as a response carries them: an absent field is 0 (R25) -/

/-- An optional byte. -/
def optByte (b : Option Byte) : Byte := b.getD 0
/-- An optional 16-bit word, as two bytes. -/
def optHalf (w : Option Half) : List Byte := halfBytes (w.getD 0)
/-- An optional count, as two bytes. -/
def optNat (n : Option Nat) : List Byte := natBytes (n.getD 0)

/-- offer_prior, present in OFFERED (R1). -/
def Lease.prior (l : Lease) : Option Prior := match l.status with | .offered p => some p | _ => none
/-- term_remaining, present in BOUND, SUSPECT and RELEASING (R1). -/
def Lease.term (l : Lease) : Option Nat :=
  match l.status with
  | .bound t _ => some t
  | .suspect t _ => some t
  | .releasing t => some t
  | _ => none
/-- quarantine_remaining, present in LOST (R1). -/
def Lease.quarantine (l : Lease) : Option Nat := match l.status with | .lost q => some q | _ => none
/-- miss_count, present in BOUND and SUSPECT (R1). -/
def Lease.miss (l : Lease) : Option Nat :=
  match l.status with
  | .bound _ m => some m
  | .suspect _ m => some m
  | _ => none

/-- The presence mask of a READ_SLOT record (Table 9-8). -/
def Lease.presence (l : Lease) : Nat :=
  maskBit true 0 + maskBit true 1 + maskBit l.cls.isSome 2 + maskBit true 3 + maskBit l.prior.isSome 4 +
    maskBit l.term.isSome 5 + maskBit l.quarantine.isSome 6 + maskBit l.miss.isSome 7 + maskBit true 8 + maskBit true 9 +
    maskBit l.lastStatus.isSome 10 + maskBit l.label.isSome 11 + maskBit true 12 + maskBit true 13 +
    maskBit l.lastWindowBad.isSome 14 + maskBit true 15

/-- The 32 bytes of a READ_SLOT record (Table 9-8); a FREE slot carries its slot number alone (R199). DESIGN CHOICE (log entry
30): bits 3 to 7 of the flags byte, which the table does not name, are 0. -/
def slotRecord (n : Slot) (inRing : Bool) : Option Lease → List Byte
  | none => slotByte n :: List.replicate 30 0 ++ [byteOf (maskBit inRing 2)]
  | some l =>
    [slotByte n, l.status.code] ++ natBytes l.presence ++ identityBytes l.identity ++
      [addressByte l.address, optByte l.cls, l.origin.code, optByte (l.prior.map Prior.code)] ++
      optNat l.term ++ optNat l.quarantine ++
      [byteOf (l.miss.getD 0), byteOf l.cadence, byteOf l.cadenceCount] ++
      optHalf l.lastStatus ++ optHalf l.label ++ [byteOf l.windowAttempts] ++ natBytes l.windowBad ++
      optNat l.lastWindowBad ++ [l.windowsClosed] ++
      [byteOf (maskBit l.poor 0 + maskBit true 1 + maskBit inRing 2)]

/-- The one time field of a lease summary: the term, or in LOST the quarantine (R26). -/
def Lease.timeField (l : Lease) : Option Nat := match l.quarantine with | some q => some q | none => l.term

/-- The 9 bytes of a lease summary (Table 9-9, R26). DESIGN CHOICE (log entry 30): bit 7 of the presence byte, which the table
does not name, is 0. -/
def leaseSummary (l : Lease) : List Byte :=
  [l.status.code,
    byteOf (maskBit true 0 + maskBit l.cls.isSome 1 + maskBit true 2 + maskBit l.timeField.isSome 3 +
      maskBit l.quarantine.isSome 4 + maskBit l.miss.isSome 5 + maskBit true 6),
    addressByte l.address, optByte l.cls, l.origin.code] ++
    optNat l.timeField ++ [byteOf (l.miss.getD 0), markByte l.poor]

/-! ### Requests -/

/-- READ_SLOT (R28). -/
def readSlotRequest (tag : Byte) (args : List Byte) (s : State) : State :=
  match args with
  | [b] =>
    match slotOf b with
    | some n => s.answer .readSlot tag .ok (slotRecord n (s.inRing n) (s.lease n))
    | none => s.answer .readSlot tag .badArg []
  | _ => s.answer .readSlot tag .badArg []

/-- LOOKUP_IDENTITY (R26). -/
def lookupIdentityRequest (tag : Byte) (args : List Byte) (s : State) : State :=
  match args with
  | [b0, b1, b2, b3, b4, b5] =>
    match s.findIdentity (identityOf b0 b1 b2 b3 b4 b5) with
    | none => s.answer .lookupIdentity tag .notFound []
    | some n =>
      match s.lease n with
      | some l => s.answer .lookupIdentity tag .ok (slotByte n :: leaseSummary l)
      | none => s.answer .lookupIdentity tag .notFound []
  | _ => s.answer .lookupIdentity tag .badArg []

/-- The data of an Address Map entry in a LOOKUP_ADDRESS response (R27, Table 9-6). -/
def State.entryReport (s : State) (a : Address) : List Byte :=
  match s.entry a with
  | .free => []
  | .quarantined q => natBytes q
  | .held n =>
    match s.lease n with
    | some l => slotByte n :: identityBytes l.identity ++ leaseSummary l
    | none => [slotByte n]

/-- LOOKUP_ADDRESS (R27). -/
def lookupAddressRequest (tag : Byte) (args : List Byte) (s : State) : State :=
  match args with
  | [b] =>
    match addressOf b with
    | some a => s.answer .lookupAddress tag .ok ([b, (s.entry a).code] ++ s.entryReport a)
    | none => s.answer .lookupAddress tag .badArg []
  | _ => s.answer .lookupAddress tag .badArg []

/-- What a label action does to the label: KEEP, SET or CLEAR; none for any other code (R29, Table 9-7). -/
def labelAction (action : Byte) (w : Half) (old : Option Half) : Option (Option Half) :=
  if action = 0 then some old else if action = 1 then some (some w) else if action = 2 then some none else none

/-- A lease with its cadence and label set (R29): cadence 0 keeps, and cadence_count is never above the cadence. -/
def Lease.withFields (l : Lease) (cadence : Nat) (label : Option Half) : Lease :=
  if cadence = 0 then { l with label := label }
  else { l with cadence := cadence, cadenceCount := min l.cadenceCount cadence, label := label }

/-- SET_FIELDS (R29). DESIGN CHOICE (log entry 33): the two label bytes of an OK response whose label present mark is clear,
which no rule states, are 0. -/
def setFieldsRequest (tag : Byte) (args : List Byte) (s : State) : State :=
  match args with
  | [b, c, action, lo, hi] =>
    match slotOf b with
    | none => s.answer .setFields tag .badArg []
    | some n =>
      if 8 < c.toNat ∨ 2 < action.toNat then s.answer .setFields tag .badArg []
      else
        match s.lease n with
        | none => s.answer .setFields tag .notFound []
        | some l =>
          match labelAction action (halfOf lo hi) l.label with
          | none => s.answer .setFields tag .badArg []
          | some label =>
            let k := l.withFields c.toNat label
            State.answer .setFields tag .ok
              ([slotByte n, byteOf k.cadence, byteOf k.cadenceCount, markByte k.label.isSome] ++ optHalf k.label)
              (s.putLease n (some k))
  | _ => s.answer .setFields tag .badArg []

/-- The slot that holds an address, FFh where none does (R19). -/
def State.holderByte (s : State) (a : Address) : Byte :=
  match s.entry a with
  | .held n => slotByte n
  | _ => 0xFF

/-- PIN (R19). -/
def pinRequest (tag : Byte) (args : List Byte) (s : State) : State :=
  match args with
  | [b0, b1, b2, b3, b4, b5, ad] =>
    let x := identityOf b0 b1 b2 b3 b4 b5
    match addressOf ad with
    | none => s.answer .pin tag .badArg []
    | some a =>
      match s.findIdentity x with
      | some n => s.answer .pin tag .duplicate [slotByte n]
      | none =>
        if s.entry a ≠ .free then s.answer .pin tag .addressBusy [s.holderByte a]
        else
          match s.freeSlot with
          | none => s.answer .pin tag .full []
          | some n =>
            (s.createLease n (newLease .reserved x a none .pinned)).answer .pin tag .ok [slotByte n]
  | _ => s.answer .pin tag .badArg []

/-- READ_SLOT is taken (R28). -/
def execReadSlot (s : State) : Host.Outcome State Fault Refusal := takeRequest .readSlot readSlotRequest s
/-- LOOKUP_IDENTITY is taken (R26). -/
def execLookupIdentity (s : State) : Host.Outcome State Fault Refusal :=
  takeRequest .lookupIdentity lookupIdentityRequest s
/-- LOOKUP_ADDRESS is taken (R27). -/
def execLookupAddress (s : State) : Host.Outcome State Fault Refusal :=
  takeRequest .lookupAddress lookupAddressRequest s
/-- SET_FIELDS is taken (R29). -/
def execSetFields (s : State) : Host.Outcome State Fault Refusal := takeRequest .setFields setFieldsRequest s
/-- PIN is taken (R19). -/
def execPin (s : State) : Host.Outcome State Fault Refusal := takeRequest .pin pinRequest s

end Sys2Proof.Machine
end

