-- ==== Sys2Proof/Machine/Frames.lean ====
section
/-! DEFINITION. Trunk characters and frames (chapter 02): the character and its parity, the frames the part builds, the
checks of a received frame, the results of a solicit listen, and the trunk's time base (8.2). -/
namespace Sys2Proof.Machine

/-! ### The bit time (8.2) -/

/-- The bit time in REFCLK periods: 2n + 2, or 2n + 3 with ODD_STEP 1 (R167). -/
def Params.bitTime (p : Params) : Nat := 2 * p.bitDivider + 2 + p.oddStep

/-- The character time in REFCLK periods: 12 bit times (R168). -/
def Params.charTime (p : Params) : Nat := Config.characterBits * p.bitTime

/-- From the beginning of a received bit to its reading, in REFCLK periods: n + 1 (R167). A fall is judged so long after it
began (R33). -/
def Params.judgeTime (p : Params) : Nat := p.bitDivider + 1

/-- From the beginning of a received character to the reading of its stop bit, in REFCLK periods (R33, R167). -/
def Params.readTime (p : Params) : Nat := 11 * p.bitTime + p.judgeTime

/-- The reply window in REFCLK periods (R39). -/
def Params.windowTime (p : Params) : Nat := p.replyWait * p.charTime

/-- The solicit listen in REFCLK periods (R45). -/
def Params.listenTime (p : Params) : Nat := Config.listenCharacters * p.charTime

/-! ### The character (2.1) -/

/-- The parity bit that makes the number of 1 bits among the data bits, the flag bit and itself odd (R31). -/
def oddParity (data : Byte) (flag : Bool) : Bool :=
  !((List.range 8).foldl (fun p i => p ^^ data.getLsbD i) flag)

/-- The twelve bits of a character the part sends: start, data bits least significant first, flag, parity, stop (R31). -/
def sentCharacter (data : Byte) (flag : Bool) : List Bool :=
  false :: ((List.range 8).map (fun i => data.getLsbD i) ++ [flag, oddParity data flag, true])

/-- A received character with its error marks: its data byte and flag are kept as read (R33). -/
def receivedCharacter (data : Byte) (flag parity stop : Bool) : RxChar :=
  { data := data, flag := flag, parityError := parity != oddParity data flag, framingError := !stop }

/-! ### The frame (2.2) -/

/-- The number of a trunk address: 0, 1..126 or 127. -/
def TrunkAddress.number : TrunkAddress → Nat
  | .broadcast => 0
  | .station a => addressNumber a
  | .newcomer => 127

/-- The sum of data bytes, modulo 256 (R34). -/
def byteSum (bytes : List Byte) : Byte := bytes.foldl (· + ·) 0

/-- A frame's data bytes: address character, kind and length, payload, and the check that brings their sum to 0 modulo 256
(R34). A downstream frame has direction 0. -/
def buildFrame (dest : TrunkAddress) (kind : Nat) (payload : List Byte) : List Byte :=
  let body := byteOf dest.number :: byteOf (kind * 16 + payload.length) :: payload
  body ++ [0 - byteSum body]

/-- The bits a frame puts on TXD, the address character with flag 1 and the others with flag 0, back to back (R32, R34). -/
def frameBits : List Byte → List Bool
  | [] => []
  | a :: rest => sentCharacter a true ++ (rest.map (fun b => sentCharacter b false)).flatten

/-- POLL: the renewal term (Table 2-3). -/
def pollFrame (a : Address) (leaseTerm : Nat) : List Byte := buildFrame (.station a) 1 [byteOf leaseTerm]
/-- SOLICIT: the solicit number (Table 2-3, R36). -/
def solicitFrame (number : Byte) : List Byte := buildFrame .newcomer 2 [number]
/-- OFFER: sent to 127 with the identity, the offered address and LEASE_TERM (Table 2-3). -/
def offerFrame (x : Identity) (a : Address) (leaseTerm : Nat) : List Byte :=
  buildFrame .newcomer 3 (identityBytes x ++ [addressByte a, byteOf leaseTerm])
/-- RELEASE (Table 2-3). -/
def releaseFrame (a : Address) : List Byte := buildFrame (.station a) 4 []
/-- PROBE (Table 2-3). -/
def probeFrame (a : Address) : List Byte := buildFrame (.station a) 5 []
/-- RELAY, to a station or to 0 for BROADCAST (Table 2-3). -/
def relayFrame (dest : TrunkAddress) (payload : List Byte) : List Byte := buildFrame dest 6 payload

/-- The kind code of an upstream frame (Table 2-4). -/
def UpstreamKind.code : UpstreamKind → Nat
  | .status => 9 | .join => 10 | .accept => 11 | .answer => 12 | .relayed => 13 | .released => 14

/-- Whether an upstream kind admits a payload length (Table 2-4). -/
def UpstreamKind.admits (k : UpstreamKind) (len : Nat) : Bool :=
  match k with
  | .status => len == 2
  | .join => len == 8
  | .accept => len == 6
  | .answer => len == 8
  | .relayed => decide (len ≤ 8)
  | .released => len == 0

/-! ### Reception (R40 to R43) -/

/-- The length nibble of the kind character, once it has been received. -/
def lengthNibble (chars : List RxChar) : Option Nat :=
  match chars with
  | _ :: k :: _ => some (k.data.toNat % 16)
  | _ => none

/-- Whether reception ends with the characters so far: the frame is complete (R40 item 1), or its length nibble is 9..15 and
character 10 has been received (R40 item 4). -/
def receptionComplete (chars : List RxChar) : Bool :=
  match lengthNibble chars with
  | none => false
  | some len => if len ≤ 8 then chars.length == len + 3 else chars.length == 11

/-- The payload data bytes of a complete frame. -/
def framePayload (chars : List RxChar) : List Byte := ((chars.drop 2).dropLast).map (fun c => c.data)

/-- The identity in the first six payload bytes. -/
def payloadIdentity (p : List Byte) : Identity :=
  identityOf (p.getD 0 0) (p.getD 1 0) (p.getD 2 0) (p.getD 3 0) (p.getD 4 0) (p.getD 5 0)

/-- WRONG_SOURCE of R42: flag 0, direction 0, or other address bits than the expected. -/
def wrongSource (chars : List RxChar) (source : TrunkAddress) : Bool :=
  match chars with
  | [] => true
  | c :: _ => !c.flag || decide (c.data.toNat ≠ 128 + source.number)

/-- WRONG_KIND of R42: another kind code, a length the kind does not admit, or, in an ACCEPT, another identity. -/
def wrongKind (chars : List RxChar) (e : Expected) : Bool :=
  match chars with
  | _ :: k :: _ =>
    decide (k.data.toNat / 16 ≠ e.kind.code) || !e.kind.admits (k.data.toNat % 16) ||
      match e.identity with
      | some x => decide (payloadIdentity (framePayload chars) ≠ x)
      | none => false
  | _ => true

/-- Whether the kind character's length nibble is 9..15 (check 3 of Table 2-7). -/
def badLength (chars : List RxChar) : Bool :=
  match lengthNibble chars with
  | some len => decide (9 ≤ len)
  | none => false

/-- The judgement of a received frame: the first failed check in the order of Table 2-7, or none (R41, R42). `short` says
that reception ended before the frame was complete. -/
def judgeFrame (chars : List RxChar) (short : Bool) (e : Expected) : Option Garble :=
  if chars.any (fun c => c.parityError) then some .parity
  else if chars.any (fun c => c.framingError) then some .framing
  else if badLength chars then some .length
  else if short then some .short
  else if byteSum (chars.map (fun c => c.data)) ≠ 0 then some .check
  else if wrongSource chars e.source then some .wrongSource
  else if wrongKind chars e then some .wrongKind
  else none

/-- The error map with the bit of a position set when its character carried an error (R43). -/
def markError (map : BitVec 11) (position : Nat) (c : RxChar) : BitVec 11 :=
  if c.parityError || c.framingError then map ||| BitVec.twoPow 11 position else map

/-! ### The solicit listen (2.4) -/

/-- What a solicit listen expects: a JOIN from 127 (R46). -/
def expectedJoin : Expected := { source := .newcomer, kind := .join, identity := none }

/-- The fields of a JOIN's payload (Table 2-4). -/
def joinOf (p : List Byte) : Join := { identity := payloadIdentity p, cls := p.getD 6 0, hint := p.getD 7 0 }

/-- A judged frame is added to its sub-slot. -/
def SubSlot.add (b : SubSlot) (chars : List RxChar) (short : Bool) : SubSlot :=
  match judgeFrame chars short expectedJoin with
  | none => { frames := b.frames + 1, failed := b.failed, join := some (joinOf (framePayload chars)) }
  | some _ => { b with frames := b.frames + 1, failed := true }

/-- The one result of a sub-slot (R47). -/
def SubSlot.result (b : SubSlot) : SubSlotResult :=
  if b.frames = 0 then .empty
  else if b.frames = 1 ∧ b.failed = false then
    match b.join with
    | some j => .join j
    | none => .collided
  else .collided

/-- The sub-slot in which a time falls (R45). -/
def Params.subSlot (p : Params) (t : Nat) : Fin 4 :=
  let k := t / (Config.subSlotCharacters * p.charTime)
  if h : k < 4 then ⟨k, h⟩ else 3

/-- The four sub-slot results in order (R47). -/
def Reception.results (r : Reception) : List SubSlotResult := r.subSlots.toList.map (fun b => b.result)

/-! ### The trunk outputs -/

/-- TXEN is high only while the Engine is in SEND (R50, R52). -/
def State.txen (s : State) : Bool := s.engine.state == .send

/-- TXD: the bit of the frame whose bit time runs, and 1 while TXEN is low (R32, R50). -/
def State.txd (s : State) : Bool :=
  match s.engine.state, s.engine.txn with
  | .send, some t => (frameBits t.frame).getD (s.engine.clock / s.params.bitTime) true
  | _, _ => true

end Sys2Proof.Machine
end

