-- ==== Sys2Proof/Machine/Census.lean ====
section
/-! DEFINITION. Census (chapter 06): the walk and the pass end, the judgement of a probe, and the census requests. -/
namespace Sys2Proof.Machine

/-! ### The walk (6.1) -/

/-- Whether an address entry leaves room for a station the table does not account for: FREE, QUARANTINED, or HELD by a LOST
lease (R129). -/
def State.probeable (s : State) (a : Address) : Bool :=
  match s.entry a with
  | .free => true
  | .quarantined _ => true
  | .held n =>
    match s.lease n with
    | some l => match l.status with | .lost _ => true | _ => false
    | none => false

/-- The next address of the sweep order, which runs from 126 on to 1 (R128). -/
def nextAddress (a : Address) : Address := a + 1

/-- The first probeable address from `a` on, up to `last`; none when the walk moves past `last` (R128, R129). -/
def State.seekProbe (s : State) (last : Address) : Nat → Address → Option Address
  | 0, _ => none
  | fuel + 1, a =>
    if s.probeable a then some a
    else if a = last then none
    else s.seekProbe last fuel (nextAddress a)

/-- What a walk step finds from where the walk stands (R129). -/
def State.nextProbe (s : State) : Option Address :=
  if s.census.beyond then none else s.seekProbe s.census.last Config.addresses s.census.cursor

/-- Writes the census state. -/
def State.setCensus (st : CensusState) (s : State) : State := { s with census := { s.census with state := st } }

/-- An address becomes the pending probe (R129). -/
def State.nameProbe (a : Address) (s : State) : State :=
  { s with census := { s.census with
      state := .running
      cursor := a
      probeNamed := true
      pending := some { address := a, inFlight := false } } }

/-- The pass end's own effects (R132): the pass is counted, CENSUS_DONE is set, the cursor becomes first, probe named is
cleared. -/
def State.endPass (s : State) : State :=
  State.raise .censusDone
    { s with census := { s.census with
        passes := s.census.passes + 1
        cursor := s.census.first
        beyond := false
        probeNamed := false } }

/-- A walk step that names a probe, or ends the pass and waits (R129, R132): IDLE in ONCE_R and ONCE, WAIT_STEP otherwise. -/
def State.walkOrWait (s : State) : State :=
  match s.nextProbe with
  | some a => s.nameProbe a
  | none =>
    match s.census.mode with
    | .onceR => s.endPass.setCensus .idle
    | .once => s.endPass.setCensus .idle
    | .continuous => s.endPass.setCensus .waitStep
    | .stepped => s.endPass.setCensus .waitStep

/-- A census walk step (R129), with the pass that CONTINUOUS begins at once after a pass that named a probe (R132). -/
def State.censusWalk (s : State) : State :=
  if s.nextProbe = none ∧ s.census.mode = .continuous ∧ s.census.probeNamed = true then s.endPass.walkOrWait
  else s.walkOrWait

/-! ### Address-only releases (6.3) -/

/-- An address-only release is offered to the Release Queue, and an address that is not HELD is withheld (R138). -/
def State.offerRelease (a : Address) (r : ReleaseReason) (s : State) : State :=
  let t := s.putEntry a (lengthenEntry s.params.quarantineMin (s.entry a))
  if t.releases.any (fun e => e.address == a) then t
  else if Config.releases ≤ t.releases.length then t
  else { t with releases := t.releases ++ [{ address := a, reason := r, inFlight := false }] }

/-! ### Answers against the table (6.4) -/

/-- The adopted count is increased by 1 (R140, R141). -/
def State.countAdopted (s : State) : State := { s with census := { s.census with adopted := s.census.adopted + 1 } }

/-- The record of a re-bound lease at address `a` (R140). -/
def rebound (l : Lease) (a : Address) (cls : Byte) : Lease :=
  { l with address := a, cls := some cls, origin := .adopted, cadenceCount := 1, lastStatus := none }

/-- A LOST lease is re-bound, at its own address or moved to the probed one; a former address takes the lease's quarantine
(R9, R140). -/
def State.rebind (n : Slot) (l : Lease) (q : Nat) (a : Address) (cls : Byte) (units : Nat) (s : State) : State :=
  let t := if l.address = a then s else (s.putEntry l.address (quarantineEntry q)).putEntry a (.held n)
  ((t.changeStatus n (rebound l a cls) (.bound (4 * units) 0)).countAdopted).joinRing n

/-- An unknown identity is adopted into the lowest FREE slot, or the table is full (R141). -/
def State.adopt (x : Identity) (a : Address) (cls : Byte) (units : Nat) (s : State) : State :=
  match s.freeSlot with
  | some n =>
    ((s.createLease n (newLease (.bound (4 * units) 0) x a (some cls) .adopted)).countAdopted).joinRing n
  | none => (s.putEntry a (lengthenEntry (4 * units + s.params.quarantineMin) (s.entry a))).raise .tableFull

/-- A conflict: the release is offered and CONFLICT is set (R143). -/
def State.conflictAt (a : Address) (s : State) : State := (s.offerRelease a .conflict).raise .conflict

/-- Whether an address is HELD. -/
def State.isHeld (s : State) (a : Address) : Bool := match s.entry a with | .held _ => true | _ => false

/-- A GOOD ANSWER with a term of `units` 1..255, classified by Table 6-1 (R139). -/
def State.takeAnswer (a : Address) (x : Identity) (cls : Byte) (units : Nat) (s : State) : State :=
  match s.findIdentity x with
  | some n =>
    match s.lease n with
    | none => s
    | some l =>
      if l.address = a then
        match l.status with
        | .lost q => s.rebind n l q a cls units
        | _ => s
      else
        match l.status with
        | .reserved => s.offerRelease a .redirect
        | .lost q => if s.isHeld a then s.conflictAt a else s.rebind n l q a cls units
        | _ => s.conflictAt a
  | none => if s.isHeld a then s.conflictAt a else s.adopt x a cls units

/-- The judgement of a probe's outcome (R136, R137). -/
def State.judgeProbe (a : Address) (o : AttemptOutcome) (payload : List Byte) (s : State) : State :=
  match o with
  | .lineFault => s
  | .noReply => s
  | .garbled _ => (s.offerRelease a .clash).raise .clash
  | .good =>
    let units := (payload.getD 7 0).toNat
    if units = 0 then s else s.takeAnswer a (payloadIdentity payload) (payload.getD 6 0) units

/-- The current probe is cleared, the cursor moves on, and the walk goes on as the mode gives (R133, R135). -/
def State.probeTaken (s : State) : State :=
  let past := s.census.cursor = s.census.last
  let t := { s with census := { s.census with
    pending := none
    cursor := if past then s.census.first else nextAddress s.census.cursor
    beyond := decide past } }
  match t.census.mode with
  | .stepped =>
    if t.census.stepPending then State.censusWalk { t with census := { t.census with stepPending := false } }
    else t.setCensus .waitStep
  | .onceR => t.censusWalk
  | .once => t.censusWalk
  | .continuous => t.censusWalk

/-- A PROBE transaction's outcome: applied to the table, then taken as the current probe's or the detached probe's (R135). -/
def State.probeDone (t : Txn) (o : AttemptOutcome) (s : State) : State :=
  match t.address with
  | .station a =>
    let u := s.judgeProbe a o (t.reply.getD [])
    match u.census.pending with
    | some p => if p.inFlight then u.probeTaken else { u with census := { u.census with detached := none } }
    | none => { u with census := { u.census with detached := none } }
  | _ => s

/-! ### Requests -/

/-- The detached probe after a stop or a restart: a probe in flight runs on as the detached one (R131, R144). -/
def Census.detach (c : Census) : Option Address :=
  match c.pending with
  | some p => if p.inFlight then some p.address else c.detached
  | none => c.detached

/-- A sweep begins over the range in the mode (R130, R131). -/
def State.beginSweep (first last : Address) (mode : CensusMode) (s : State) : State :=
  let t := { s with census := { s.census with
    state := .waitStep, mode := mode, first := first, last := last, cursor := first, beyond := false,
    stepPending := false, probeNamed := false, passes := 0, adopted := 0, pending := none,
    detached := s.census.detach } }
  match mode with
  | .stepped => t
  | .onceR => t.censusWalk
  | .once => t.censusWalk
  | .continuous => t.censusWalk

/-- The cursor as the host sees it. -/
def State.cursorByte (s : State) : Byte := addressByte s.census.cursor

/-- CENSUS_START (R130, R131). -/
def censusStartRequest (tag : Byte) (args : List Byte) (s : State) : State :=
  match args with
  | [f, l, m] =>
    match addressOf f, addressOf l, CensusMode.ofCode m with
    | some first, some last, some mode =>
      if s.census.state = .idle then
        let t := s.beginSweep first last mode
        t.answer .censusStart tag .ok [t.census.state.code, t.cursorByte, 0]
      else if s.census.mode = .onceR then
        let t := s.beginSweep first last mode
        t.answer .censusStart tag .ok [t.census.state.code, t.cursorByte, 1]
      else s.answer .censusStart tag .busy []
    | _, _, _ => s.answer .censusStart tag .badArg []
  | _ => s.answer .censusStart tag .badArg []

/-- The sweep ends without a pass end (R144). -/
def State.stopCensus (s : State) : State :=
  { s with census := { s.census with state := .idle, stepPending := false, pending := none, detached := s.census.detach } }

/-- CENSUS_STOP (R144). -/
def censusStopRequest (tag : Byte) (args : List Byte) (s : State) : State :=
  match args with
  | [] =>
    let t := if s.census.state = .idle then s else s.stopCensus
    t.answer .censusStop tag .ok [s.census.state.code]
  | _ => s.answer .censusStop tag .badArg []

/-- A step of a STEPPED census (R133). -/
def State.takeStep (s : State) : State :=
  match s.census.state with
  | .waitStep => s.censusWalk
  | .running => { s with census := { s.census with stepPending := true } }
  | .idle => s

/-- What becomes of a step: TAKEN, PENDING or MERGED (R134). -/
def State.stepResult (s : State) : Byte :=
  match s.census.state with
  | .running => if s.census.stepPending then 2 else 1
  | _ => 0

/-- CENSUS_STEP (R134). -/
def censusStepRequest (tag : Byte) (args : List Byte) (s : State) : State :=
  match args with
  | [] =>
    if s.census.mode ≠ .stepped ∨ s.params.stepSource = 0 ∨ s.census.state = .idle then
      s.answer .censusStep tag .badState []
    else
      let t := s.takeStep
      t.answer .censusStep tag .ok [s.stepResult, t.census.state.code, t.cursorByte]
  | _ => s.answer .censusStep tag .badArg []

/-- The probe flags of CENSUS_STATUS (Table 9-7). -/
def Census.probeFlags (c : Census) : Byte :=
  byteOf (maskBit (c.pending.any (fun p => !p.inFlight)) 0 + maskBit (c.pending.any (fun p => p.inFlight)) 1 +
    maskBit c.detached.isSome 2)

/-- CENSUS_STATUS (R145). -/
def censusStatusRequest (tag : Byte) (args : List Byte) (s : State) : State :=
  match args with
  | [] =>
    let c := s.census
    s.answer .censusStatus tag .ok
      ([c.state.code, c.mode.code, addressByte c.first, addressByte c.last, addressByte c.cursor, markByte c.stepPending] ++
        halfBytes c.passes ++ halfBytes c.adopted ++ [c.probeFlags])
  | _ => s.answer .censusStatus tag .badArg []

/-- CENSUS_START is taken (R130, R131). -/
def execCensusStart (s : State) : Host.Outcome State Fault Refusal := takeRequest .censusStart censusStartRequest s
/-- CENSUS_STOP is taken (R144). -/
def execCensusStop (s : State) : Host.Outcome State Fault Refusal := takeRequest .censusStop censusStopRequest s
/-- CENSUS_STEP is taken (R134). -/
def execCensusStep (s : State) : Host.Outcome State Fault Refusal := takeRequest .censusStep censusStepRequest s
/-- CENSUS_STATUS is taken (R145). -/
def execCensusStatus (s : State) : Host.Outcome State Fault Refusal := takeRequest .censusStatus censusStatusRequest s

end Sys2Proof.Machine
end

