-- ==== Sys2Proof/Machine/Enrolment.lean ====
section
/-! DEFINITION. Enrolment (chapter 04): its requests, the evaluation of a solicit's results, and the outcome of an OFFER. -/
namespace Sys2Proof.Machine

/-! ### Evaluating the results of a solicit (4.3) -/

/-- A slot is appended to the Offer List with an attempt count of 0 (R90). -/
def State.addOffer (n : Slot) (s : State) : State :=
  { s with enrol := { s.enrol with offers := s.enrol.offers ++ [{ slot := n, attempts := 0 }] } }

/-- A rejoin: the lease becomes OFFERED at its own address with the JOIN's class, and joins the Offer List (R79 to R81). -/
def State.rejoin (n : Slot) (l : Lease) (prior : Prior) (j : Join) (s : State) : State :=
  (s.changeStatus n { l with cls := some j.cls } (.offered prior)).addOffer n

/-- Whether the mode admits an unknown identity (R82). -/
def State.admits (s : State) (x : Identity) : Bool :=
  match s.enrol.mode with
  | .closed => false
  | .listed => s.enrol.admission.contains x
  | .opened => true

/-- A JOIN from an unknown identity: admission, then slot, then address (R82, R83, R84). -/
def State.newcomer (j : Join) (s : State) : State :=
  if s.admits j.identity = false then s.raise .refused
  else
    match s.freeSlot with
    | none => s.raise .tableFull
    | some n =>
      match s.chooseAddress j.hint with
      | none => s.raise .poolEmpty
      | some a => (s.createLease n (newLease (.offered .fresh) j.identity a (some j.cls) .joined)).addOffer n

/-- One JOIN result, classified by Table 4-2 from its second row on (R78). -/
def State.takeJoin (j : Join) (s : State) : State :=
  match s.findIdentity j.identity with
  | none => s.newcomer j
  | some n =>
    match s.lease n with
    | none => s
    | some l =>
      match l.status with
      | .releasing _ => s
      | .reserved => s.rejoin n l .reserved j
      | .lost _ => s.rejoin n l .lost j
      | .bound _ _ => ((s.rejoin n l .lost j).leaveRing n).pollSettle
      | .suspect _ _ => ((s.rejoin n l .lost j).leaveRing n).pollSettle
      | .offered _ => s

/-- The results in sub-slot order, each taken whole before the next (R77); `seen` holds the identities of the JOIN results
of earlier sub-slots, which are ignored when they come again (row 1 of Table 4-2). -/
def State.takeResults : List Identity → List SubSlotResult → State → State
  | _, [], s => s
  | seen, .join j :: rest, s =>
    if seen.contains j.identity then s.takeResults seen rest
    else (s.takeJoin j).takeResults (j.identity :: seen) rest
  | seen, .empty :: rest, s => s.takeResults seen rest
  | seen, .collided :: rest, s => s.takeResults seen rest

/-- The evaluation of a solicit that ended GOOD, under the mode that holds now (R77). -/
def State.evaluateSolicit (results : List SubSlotResult) (s : State) : State :=
  match s.enrol.mode with
  | .closed => s
  | .listed => s.takeResults [] results
  | .opened => s.takeResults [] results

/-! ### The outcome of an OFFER (4.5) -/

/-- An accepted offer binds its lease (R92). -/
def State.bindOffer (n : Slot) (l : Lease) (s : State) : State :=
  ((s.changeStatus n { l with cadenceCount := 1, lastStatus := none } (.bound (s.params.leaseTerm * 4) 0)).dropOffer
    n).joinRing n

/-- The lease of an OFFER's completion, when R7 finds it OFFERED (R92, R93, R96). -/
def State.offeredLease (s : State) (n : Slot) (x : Identity) (a : TrunkAddress) : Option Lease :=
  match s.matched n x a with
  | some l =>
    match l.status with
    | .offered _ => some l
    | _ => none
  | none => none

/-- An OFFER transaction's outcome at the Enrolment Unit: bound, abandoned, left standing, or dropped (R92 to R96). -/
def State.offerDone (t : Txn) (o : AttemptOutcome) (s : State) : State :=
  match t.slot, t.identity with
  | some n, some x =>
    match s.offeredLease n x t.address with
    | none => s
    | some l =>
      match o with
      | .good => s.bindOffer n l
      | .noReply => s.abandonOffer n s.offerQuarantine
      | .garbled _ => s.abandonOffer n s.offerQuarantine
      | .lineFault => s
  | _, _ => s

/-- A failed attempt before the last adds 1 to the count of the entry that names the captured slot (R94). -/
def State.countOfferAttempt (n : Slot) (s : State) : State :=
  { s with enrol := { s.enrol with
      offers := s.enrol.offers.map (fun o => if o.slot = n then { o with attempts := o.attempts + 1 } else o) } }

/-! ### Requests -/

/-- SET_ENROL_MODE (R74). -/
def setEnrolModeRequest (tag : Byte) (args : List Byte) (s : State) : State :=
  match args with
  | [m] =>
    match EnrolMode.ofCode m with
    | none => s.answer .setEnrolMode tag .badArg []
    | some mode =>
      let t := { s with enrol := { s.enrol with
        mode := mode
        solicitDue := if mode = EnrolMode.closed then false else s.enrol.solicitDue } }
      t.answer .setEnrolMode tag .ok
        [s.enrol.mode.code, mode.code, markByte t.enrol.solicitDue, byteOf t.enrol.offers.length]
  | _ => s.answer .setEnrolMode tag .badArg []

/-- Writes the Admission List. -/
def State.setAdmission (xs : List Identity) (s : State) : State :=
  { s with enrol := { s.enrol with admission := xs } }

/-- ADMIT_ADD (R87). -/
def admitAddRequest (tag : Byte) (args : List Byte) (s : State) : State :=
  match args with
  | [b0, b1, b2, b3, b4, b5] =>
    let x := identityOf b0 b1 b2 b3 b4 b5
    let xs := s.enrol.admission
    if xs.contains x then s.answer .admitAdd tag .duplicate [byteOf (xs.idxOf x)]
    else if Config.admission ≤ xs.length then s.answer .admitAdd tag .full [byteOf xs.length]
    else (s.setAdmission (xs ++ [x])).answer .admitAdd tag .ok [byteOf xs.length, byteOf (xs.length + 1)]
  | _ => s.answer .admitAdd tag .badArg []

/-- ADMIT_REMOVE (R88). -/
def admitRemoveRequest (tag : Byte) (args : List Byte) (s : State) : State :=
  match args with
  | [b0, b1, b2, b3, b4, b5] =>
    let x := identityOf b0 b1 b2 b3 b4 b5
    let xs := s.enrol.admission
    if xs.contains x then
      (s.setAdmission (xs.eraseIdx (xs.idxOf x))).answer .admitRemove tag .ok
        [byteOf (xs.idxOf x), byteOf (xs.length - 1)]
    else s.answer .admitRemove tag .notFound [byteOf xs.length]
  | _ => s.answer .admitRemove tag .badArg []

/-- ADMIT_CLEAR (R89). -/
def admitClearRequest (tag : Byte) (args : List Byte) (s : State) : State :=
  match args with
  | [] => (s.setAdmission []).answer .admitClear tag .ok [byteOf s.enrol.admission.length]
  | _ => s.answer .admitClear tag .badArg []

/-- ADMIT_READ (R89). -/
def admitReadRequest (tag : Byte) (args : List Byte) (s : State) : State :=
  match args with
  | [i] =>
    let xs := s.enrol.admission
    if 31 < i.toNat then s.answer .admitRead tag .badArg []
    else
      match xs[i.toNat]? with
      | some x => s.answer .admitRead tag .ok (identityBytes x ++ [byteOf xs.length])
      | none => s.answer .admitRead tag .notFound [byteOf xs.length]
  | _ => s.answer .admitRead tag .badArg []

/-- SET_ENROL_MODE is taken (R74). -/
def execSetEnrolMode (s : State) : Host.Outcome State Fault Refusal := takeRequest .setEnrolMode setEnrolModeRequest s
/-- ADMIT_ADD is taken (R87). -/
def execAdmitAdd (s : State) : Host.Outcome State Fault Refusal := takeRequest .admitAdd admitAddRequest s
/-- ADMIT_REMOVE is taken (R88). -/
def execAdmitRemove (s : State) : Host.Outcome State Fault Refusal := takeRequest .admitRemove admitRemoveRequest s
/-- ADMIT_CLEAR is taken (R89). -/
def execAdmitClear (s : State) : Host.Outcome State Fault Refusal := takeRequest .admitClear admitClearRequest s
/-- ADMIT_READ is taken (R89). -/
def execAdmitRead (s : State) : Host.Outcome State Fault Refusal := takeRequest .admitRead admitReadRequest s

end Sys2Proof.Machine
end

