-- ==== Sys2Proof/Machine/Polling.lean ====
section
/-! DEFINITION. Polling and renewal (chapter 05): the poll completion, and the scheduler's requests. -/
namespace Sys2Proof.Machine

/-! ### The poll completion (5.3) -/

/-- The status word of a GOOD poll is stored; it is handed over with STATUS when it is the first or differs (R116). -/
def State.storeStatus (n : Slot) (l : Lease) (w : Half) (s : State) : State :=
  let t := s.putLease n (some { l with lastStatus := some w })
  if l.lastStatus = some w then t else t.handOver n .status

/-- A GOOD poll renews the lease; a SUSPECT lease becomes BOUND and is handed over with STATE (R115). -/
def State.renew (n : Slot) (l : Lease) (wasSuspect : Bool) (w : Half) (s : State) : State :=
  let t := s.storeStatus n { l with status := .bound (s.params.leaseTerm * 4) 0 } w
  if wasSuspect then t.handOver n .state else t

/-- A failed poll adds one miss (R117): LOST at LOST_AFTER, SUSPECT at SUSPECT_AFTER, otherwise only counted. -/
def State.countMiss (n : Slot) (l : Lease) (term miss : Nat) (wasSuspect : Bool) (s : State) : State :=
  let m := miss + 1
  if s.params.lostAfter ≤ m then s.loseLease n l (term + s.params.quarantineMin)
  else if wasSuspect then s.putLease n (some { l with status := .suspect term m })
  else if s.params.suspectAfter ≤ m then s.changeStatus n l (.suspect term m)
  else s.putLease n (some { l with status := .bound term m })

/-- The effect of a poll's outcome on its lease, under R7 with BOUND and SUSPECT expected (R113). -/
def State.pollEffect (t : Txn) (o : AttemptOutcome) (s : State) : State :=
  match t.slot, t.identity with
  | some n, some x =>
    match s.matched n x t.address with
    | none => s
    | some l =>
      match l.status, o with
      | .bound _ _, .good => s.renew n l false (halfOf ((t.reply.getD []).getD 0 0) ((t.reply.getD []).getD 1 0))
      | .suspect _ _, .good => s.renew n l true (halfOf ((t.reply.getD []).getD 0 0) ((t.reply.getD []).getD 1 0))
      | .bound term miss, .noReply => s.countMiss n l term miss false
      | .bound term miss, .garbled _ => s.countMiss n l term miss false
      | .suspect term miss, .noReply => s.countMiss n l term miss true
      | .suspect term miss, .garbled _ => s.countMiss n l term miss true
      | _, _ => s
  | _, _ => s

/-- The completion at the scheduler (R114): the poll in flight is the pending poll, which is cleared and its member marked,
or else a detached poll, which touches neither the pending poll nor any mark (R111). -/
def State.pollTaken (n : Slot) (s : State) : State :=
  match s.poll.pending with
  | some p =>
    if p.inFlight then State.markVisited n { s with poll := { s.poll with pending := none } }
    else { s with poll := { s.poll with detached := none } }
  | none => { s with poll := { s.poll with detached := none } }

/-- A POLL transaction's outcome: its effect on the lease, the scheduler's part in the same change, and the walk step that
may follow (R113, R114). -/
def State.pollDone (t : Txn) (o : AttemptOutcome) (s : State) : State :=
  match t.slot with
  | some n => ((s.pollEffect t o).pollTaken n).pollSettle
  | none => s

/-! ### Requests -/

/-- POLL_CONTROL to OFF (R111): the round ends without ROUND_DONE, an ungranted pending poll is withdrawn, and one in flight
becomes a detached poll. -/
def State.stopPolling (s : State) : State :=
  { s with poll := { s.poll with
      mode := .off
      state := .off
      pending := none
      detached :=
        match s.poll.pending with
        | some p => if p.inFlight then some p.slot else s.poll.detached
        | none => s.poll.detached } }

/-- Enters a poll mode that is not OFF (R103): from OFF the state becomes WAIT; in CONTINUOUS a round begins at once from WAIT
when the ring is not empty (R108); a running round goes on. -/
def State.enterPollMode (mode : PollMode) (s : State) : State :=
  let t := { s with poll := { s.poll with mode := mode, state := if s.poll.state = .off then .wait else s.poll.state } }
  if t.poll.state = .wait ∧ mode = .continuous ∧ t.poll.ring ≠ [] then t.beginRound else t

/-- POLL_CONTROL's change of mode; the present mode changes nothing (R103). -/
def State.setPollMode (mode : PollMode) (s : State) : State :=
  if mode = s.poll.mode then s
  else if mode = .off then s.stopPolling
  else s.enterPollMode mode

/-- POLL_CONTROL (R103). -/
def pollControlRequest (tag : Byte) (args : List Byte) (s : State) : State :=
  match args with
  | [m] =>
    match PollMode.ofCode m with
    | none => s.answer .pollControl tag .badArg []
    | some mode =>
      let t := s.setPollMode mode
      t.answer .pollControl tag .ok ([s.poll.mode.code, t.poll.mode.code, t.poll.state.code] ++ halfBytes t.poll.rounds)
  | _ => s.answer .pollControl tag .badArg []

/-- POLL_ROUND (R110). -/
def pollRoundRequest (tag : Byte) (args : List Byte) (s : State) : State :=
  match args with
  | [] =>
    if s.poll.mode ≠ .single then s.answer .pollRound tag .badState []
    else if s.poll.state = .round then s.answer .pollRound tag .busy []
    else
      let t := s.beginRound
      t.answer .pollRound tag .ok ([byteOf s.poll.ring.length, t.poll.state.code] ++ halfBytes t.poll.rounds)
  | _ => s.answer .pollRound tag .badArg []

/-- Puts a member immediately before the anchor, or at the tail for none (R101). -/
def insertBefore (m : RingMember) (anchor : Option Slot) (ring : List RingMember) : List RingMember :=
  match anchor, ring with
  | _, [] => [m]
  | none, _ => ring ++ [m]
  | some a, k :: ks => if k.slot = a then m :: k :: ks else k :: insertBefore m (some a) ks

/-- The ring with a member moved (R101). -/
def moveMember (n : Slot) (anchor : Option Slot) (ring : List RingMember) : List RingMember :=
  match ring.find? (fun m => m.slot == n) with
  | none => ring
  | some m => insertBefore m anchor (ring.filter (fun k => k.slot ≠ n))

/-- The anchor a byte names: FFh the tail, 0..63 a slot (Table 9-7). -/
def anchorOf (b : Byte) : Option (Option Slot) := if b = 0xFF then some none else (slotOf b).map some

/-- RING_MOVE (R101). -/
def ringMoveRequest (tag : Byte) (args : List Byte) (s : State) : State :=
  match args with
  | [b, c] =>
    match slotOf b, anchorOf c with
    | some n, some anchor =>
      if anchor = some n then s.answer .ringMove tag .badArg []
      else if s.inRing n = false then s.answer .ringMove tag .notFound []
      else if anchor.any (fun a => !s.inRing a) then s.answer .ringMove tag .notFound []
      else
        let ring := moveMember n anchor s.poll.ring
        State.answer .ringMove tag .ok
          [byteOf (ring.findIdx (fun m => m.slot == n)), byteOf ring.length] { s with poll := { s.poll with ring := ring } }
    | _, _ => s.answer .ringMove tag .badArg []
  | _ => s.answer .ringMove tag .badArg []

/-- POLL_CONTROL is taken (R103, R111). -/
def execPollControl (s : State) : Host.Outcome State Fault Refusal := takeRequest .pollControl pollControlRequest s
/-- POLL_ROUND is taken (R110). -/
def execPollRound (s : State) : Host.Outcome State Fault Refusal := takeRequest .pollRound pollRoundRequest s
/-- RING_MOVE is taken (R101). -/
def execRingMove (s : State) : Host.Outcome State Fault Refusal := takeRequest .ringMove ringMoveRequest s

end Sys2Proof.Machine
end

