-- ==== Sys2Proof/Machine/Relaying.lean ====
section
/-! DEFINITION. Relay (7.3 to 7.7): RELAY, RELAY_CANCEL and the completion of a relay. -/
namespace Sys2Proof.Machine

/-- Writes the Relay Queue. -/
def State.setRelays (rs : List Relay) (s : State) : State := { s with relays := rs }

/-- Whether a lease is BOUND or SUSPECT. -/
def isBound : Option Lease → Bool
  | some l => match l.status with | .bound _ _ => true | .suspect _ _ => true | _ => false
  | none => false

/-- The result code of a relay's outcome (Table 7-7). -/
def relayResult : AttemptOutcome → Result
  | .good => .ok
  | .noReply => .noReply
  | .garbled _ => .garbled
  | .lineFault => .lineFault

/-- The reason byte of a relay response: the GARBLED reason of the last attempt, or 0 (Table 9-6). DESIGN CHOICE (log entry 31):
a relay answered LINE_FAULT carries 0, also when the fault rose in the guard after an attempt that ended GARBLED. -/
def relayReason : AttemptOutcome → Byte
  | .garbled r => r.code
  | _ => 0

/-- The data of a relay's response (Table 7-7, Table 9-6): the reply travels with OK alone. -/
def relayData (t : Txn) (o : AttemptOutcome) : List Byte :=
  let reply := if o = .good then t.reply.getD [] else []
  [byteOf t.address.number, byteOf t.attempt, relayReason o] ++ halfBytes (t.errorMap.setWidth 16) ++
    [byteOf reply.length] ++ reply

/-- A relay transaction's outcome: the head leaves the queue and its deferred response is written (R159). -/
def State.relayDone (t : Txn) (o : AttemptOutcome) (s : State) : State :=
  match s.relays with
  | [] => s
  | e :: rest => (s.setRelays rest).settle .relay e.tag (relayResult o) (relayData t o)

/-- RELAY (R156). -/
def relayRequest (tag : Byte) (args : List Byte) (s : State) : State :=
  match args with
  | b :: w :: r :: payload =>
    if 8 < payload.length then s.answer .relay tag .badArg []
    else
      match RelayTarget.ofCode b, bitOf w, retriesOf r with
      | some target, some wait, some retries =>
        let e : Relay := { tag := tag, target := target, waitReply := wait, retries := retries, payload := payload,
                           inFlight := false }
        let enter (s : State) : State :=
          if Config.relays ≤ s.relays.length then s.answer .relay tag .full []
          else (s.setRelays (s.relays ++ [e])).defer .relay
        match target with
        | .broadcast => enter s
        | .slot n =>
          if isBound (s.lease n) then enter s
          else s.answer .relay tag .notBound [slotByte n, leaseCode (s.lease n)]
      | _, _, _ => s.answer .relay tag .badArg []
  | _ => s.answer .relay tag .badArg []

/-- Takes out the first entry that carries the tag and is not in flight (R161). -/
def cancelFirst (tag : Byte) : List Relay → List Relay
  | [] => []
  | e :: rest => if e.tag = tag ∧ e.inFlight = false then rest else e :: cancelFirst tag rest

/-- RELAY_CANCEL (R161): the cancelled relay's response, then the cancel's own. -/
def relayCancelRequest (tag : Byte) (args : List Byte) (s : State) : State :=
  match args with
  | [k] =>
    if s.relays.any (fun e => e.tag == k && !e.inFlight) then
      let t := (s.setRelays (cancelFirst k s.relays)).settle .relay k .cancelled []
      t.answer .relayCancel tag .ok [byteOf t.relays.length]
    else if s.relays.any (fun e => e.tag == k && e.inFlight) then s.answer .relayCancel tag .tooLate []
    else s.answer .relayCancel tag .notFound []
  | _ => s.answer .relayCancel tag .badArg []

/-- RELAY is taken (R156). -/
def execRelay (s : State) : Host.Outcome State Fault Refusal := takeRequest .relay relayRequest s
/-- RELAY_CANCEL is taken (R161). -/
def execRelayCancel (s : State) : Host.Outcome State Fault Refusal := takeRequest .relayCancel relayCancelRequest s

end Sys2Proof.Machine
end

