-- ==== Sys2Proof/Machine/Retirement.lean ====
section
/-! DEFINITION. Retirement (1.6, 7.1, 7.2): RETIRE in both modes, the Release Queue, and the outcome of a RELEASE. -/
namespace Sys2Proof.Machine

/-! ### The Release Queue (7.1, 7.2) -/

/-- Writes the Release Queue. -/
def State.setReleases (rs : List Release) (s : State) : State := { s with releases := rs }

/-- The condition and seconds of an address entry, as a RETIRE response carries them (Table 9-6). -/
def State.entryData (a : Address) (s : State) : List Byte := (s.entry a).code :: natBytes (s.entry a).seconds

/-- The data of a graceful RETIRE's response (R152): slot, address, released mark, attempts, entry after the change. -/
def State.releaseData (n : Slot) (a : Address) (released : Bool) (attempts : Nat) (s : State) : List Byte :=
  [slotByte n, addressByte a, markByte released, byteOf attempts] ++ s.entryData a

/-- A lease in RELEASING becomes FREE, its address withheld for QUARANTINE_MIN, after its frozen term when `full` (R9, R152,
R63, R70). -/
def State.endReleasing (n : Slot) (full : Bool) (s : State) : State :=
  match s.lease n with
  | some l =>
    match l.status with
    | .releasing term => s.vacate n l (if full then term + s.params.quarantineMin else s.params.quarantineMin)
    | _ => s
  | none => s

/-- Whether R7 finds the lease of a release completion, RELEASING with the captured identity and address (R152). -/
def State.releasingMatched (s : State) (t : Txn) (n : Slot) : Bool :=
  match t.identity with
  | some x =>
    match s.matched n x t.address with
    | some l => match l.status with | .releasing _ => true | _ => false
    | none => false
  | none => false

/-- The completion of a lease entry by Table 7-4 (R152). -/
def State.completeRelease (t : Txn) (o : AttemptOutcome) (n : Slot) (tag : Byte) (a : Address) (s : State) : State :=
  let released := o = .good
  let u := if s.releasingMatched t n then s.endReleasing n (!released) else s
  u.settle .retire tag (if o = .lineFault then .lineFault else .ok) (u.releaseData n a released t.attempt)

/-- A RELEASE transaction's outcome: the head leaves the queue; a lease entry is completed by R152, an address-only entry
ends without any other effect (R153). -/
def State.releaseDone (t : Txn) (o : AttemptOutcome) (s : State) : State :=
  match s.releases with
  | [] => s
  | e :: rest =>
    match e.reason with
    | .retire n tag => (s.setReleases rest).completeRelease t o n tag e.address
    | .clash => s.setReleases rest
    | .conflict => s.setReleases rest
    | .redirect => s.setReleases rest

/-! ### RETIRE (R21 to R24, R148, R149) -/

/-- The quarantine a forced RETIRE gives (R9). -/
def State.forcedQuarantine (s : State) (l : Lease) : Nat :=
  match l.status with
  | .reserved => 0
  | .offered _ => s.offerQuarantine
  | .bound term _ => term + s.params.quarantineMin
  | .suspect term _ => term + s.params.quarantineMin
  | .lost q => q
  | .releasing term => term + s.params.quarantineMin

/-- A forced RETIRE frees the lease in one change: it leaves the ring and the Offer List, and the poll walk goes on where its
pending poll was withdrawn (R22 to R24, R100). -/
def State.retireNow (n : Slot) (l : Lease) (s : State) : State :=
  (((s.vacate n l (s.forcedQuarantine l)).leaveRing n).dropOffer n).pollSettle

/-- RETIRE in FORCED mode, or with arguments out of range (R21). -/
def retireForcedRequest (tag : Byte) (args : List Byte) (s : State) : State :=
  match args with
  | [b, m] =>
    match slotOf b with
    | none => s.answer .retire tag .badArg []
    | some n =>
      if m ≠ 1 then s.answer .retire tag .badArg []
      else
        match s.lease n with
        | none => s.answer .retire tag .notFound []
        | some l =>
          match l.status with
          | .releasing _ => s.answer .retire tag .busy [l.status.code, addressByte l.address]
          | _ =>
            let t := s.retireNow n l
            t.answer .retire tag .ok ([slotByte n, l.status.code, addressByte l.address] ++ t.entryData l.address)
  | _ => s.answer .retire tag .badArg []

/-- The lease becomes RELEASING with its term frozen and leaves the ring (R149). -/
def State.startReleasing (n : Slot) (l : Lease) (term : Nat) (s : State) : State :=
  ((s.changeStatus n l (.releasing term)).leaveRing n).pollSettle

/-- A graceful RETIRE of a BOUND or SUSPECT lease, checked by rows 2 to 5 of Table 7-2 (R148, R149). -/
def State.retireByRelease (n : Slot) (l : Lease) (term : Nat) (tag : Byte) (s : State) : State :=
  match s.releases.find? (fun e => e.address == l.address) with
  | some e =>
    if e.inFlight then s.answer .retire tag .busy [l.status.code, addressByte l.address]
    else
      let rs := s.releases.map (fun k => if k.address = l.address then { k with reason := .retire n tag } else k)
      ((s.setReleases rs).startReleasing n l term).defer .retire
  | none =>
    if Config.releases ≤ s.releases.length then s.answer .retire tag .full [l.status.code, addressByte l.address]
    else
      let e : Release := { address := l.address, reason := .retire n tag, inFlight := false }
      ((s.setReleases (s.releases ++ [e])).startReleasing n l term).defer .retire

/-- RETIRE in GRACEFUL mode (R21, R148, R149). -/
def retireGracefulRequest (tag : Byte) (args : List Byte) (s : State) : State :=
  match args with
  | [b, _] =>
    match slotOf b with
    | none => s.answer .retire tag .badArg []
    | some n =>
      match s.lease n with
      | none => s.answer .retire tag .notFound []
      | some l =>
        match l.status with
        | .releasing _ => s.answer .retire tag .busy [l.status.code, addressByte l.address]
        | .bound term _ => s.retireByRelease n l term tag
        | .suspect term _ => s.retireByRelease n l term tag
        | _ => s.answer .retire tag .badState [l.status.code, addressByte l.address]
  | _ => s.answer .retire tag .badArg []

/-- RETIRE is taken in FORCED mode (R21 to R24). -/
def execRetireForced (s : State) : Host.Outcome State Fault Refusal := takeRequest .retireForced retireForcedRequest s
/-- RETIRE is taken in GRACEFUL mode (R148, R149). -/
def execRetireGraceful (s : State) : Host.Outcome State Fault Refusal :=
  takeRequest .retireGraceful retireGracefulRequest s

end Sys2Proof.Machine
end

