-- ==== Sys2Proof/Machine/Trunk.lean ====
section
/-! DEFINITION. The Trunk Engine (chapters 02 and 03): grants, attempts, reception, the ends of transactions, trunk control,
and trunk faults. -/
namespace Sys2Proof.Machine

/-! ### Engine state -/

/-- Writes the Engine's state; the REFCLK count of the present frame, wait or guard starts afresh. -/
def State.enterEngine (st : EngineState) (s : State) : State :=
  { s with engine := { s.engine with state := st, clock := 0, guardFrom := 0, reception := Reception.reset } }

/-- The guard of an attempt that ended at time `ended` of its frame or wait: the count goes on (R44). -/
def State.enterGuard (ended : Nat) (s : State) : State :=
  { s with engine := { s.engine with state := .guarding, guardFrom := ended, reception := Reception.reset } }

/-- Time `t` of the present frame, wait or guard has come. -/
def State.passTo (t : Nat) (s : State) : State := { s with engine := { s.engine with clock := max s.engine.clock t } }

/-- Writes the in-flight transaction record. -/
def State.setTxn (t : Option Txn) (s : State) : State := { s with engine := { s.engine with txn := t } }

/-- A pending DISABLE is answered OK with engine state OFF (R61, R64). -/
def State.answerDisable (s : State) : State :=
  match s.engine.pendingDisable with
  | none => s
  | some tag =>
    State.settle .trunkControl tag .ok [EngineState.off.code] { s with engine := { s.engine with pendingDisable := none } }

/-- The Engine enters OFF, other than by reset: ENGINE_OFF is set, and a pending DISABLE is answered (R61). -/
def State.enterOff (s : State) : State := ((s.enterEngine .off).raise .engineOff).answerDisable

/-! ### Ends of attempts and transactions (3.2) -/

/-- The outcome of a transaction other than a SOLICIT goes to its owner (R55, Table 3-5). A SOLICIT that is cut has no
results and changes nothing (R76). -/
def State.txnDone (t : Txn) (o : AttemptOutcome) (s : State) : State :=
  match t.kind with
  | .poll => s.pollDone t o
  | .solicit => s
  | .offer => s.offerDone t o
  | .release => s.releaseDone t o
  | .probe => s.probeDone t o
  | .relay => s.relayDone t o

/-- Whether an outcome is a failure that a quality window counts as bad (R120). -/
def AttemptOutcome.isBad : AttemptOutcome → Bool
  | .noReply => true
  | .garbled _ => true
  | _ => false

/-- An attempt of a POLL or of a RELAY to a lease is handed to the captured slot's quality window (R54, R120). -/
def State.countTxnAttempt (t : Txn) (o : AttemptOutcome) (s : State) : State :=
  match t.kind, t.slot, t.identity with
  | .poll, some n, some x => s.countAttempt n x t.address o.isBad
  | .relay, some n, some x => s.countAttempt n x t.address o.isBad
  | _, _, _ => s

/-- An OFFER attempt that failed before the last is counted in its Offer List entry (R54, R94). -/
def State.countFailedOffer (t : Txn) (s : State) : State :=
  match t.kind, t.slot with
  | .offer, some n => s.countOfferAttempt n
  | _, _ => s

/-- An attempt ends GOOD, NO_REPLY or GARBLED at time `ended` (R54): the window counts it, the Engine enters GUARD, and the
transaction ends with it or goes on. -/
def State.endAttempt (ended : Nat) (o : AttemptOutcome) (payload : Option (List Byte)) (s : State) : State :=
  match s.engine.txn with
  | none => s
  | some t =>
    let t' := { t with lastOutcome := some o, reply := match payload with | some p => some p | none => t.reply }
    let u := (s.countTxnAttempt t' o).enterGuard ended
    if o = .good ∨ t.maxAttempts ≤ t.attempt then (u.setTxn none).txnDone t' o
    else (u.setTxn (some t')).countFailedOffer t'

/-- The COLLIDED results of a listen (R56). -/
def collidedCount (rs : List SubSlotResult) : Nat := rs.countP (fun r => r == .collided)

/-- The solicit listen ends at time `ended`: the SOLICIT ends GOOD, its collisions are counted, and its results are evaluated
(R45, R47, R56, R76, R77). -/
def State.endListen (ended : Nat) (s : State) : State :=
  let rs := s.engine.reception.results
  let t := (s.enterGuard ended).setTxn none
  State.evaluateSolicit rs
    { t with engine := { t.engine with collisions := t.engine.collisions + BitVec.ofNat 16 (collidedCount rs) } }

/-! ### Reception (2.1, 2.2, 2.4) -/

/-- Writes the reception. -/
def State.setReception (r : Reception) (s : State) : State := { s with engine := { s.engine with reception := r } }

/-- Whether the transaction in flight is a SOLICIT, whose wait is a listen. -/
def State.inListen (s : State) : Bool :=
  match s.engine.txn with
  | some t => t.kind == .solicit
  | none => false

/-- The frame in reception is judged and kept for its sub-slot (R46, R47). -/
def State.keepFrame (short : Bool) (s : State) : State :=
  let r := s.engine.reception
  let k := s.params.subSlot r.frameBegan
  s.setReception { r with chars := [], subSlots := r.subSlots.set k (r.subSlots[k].add r.chars short) }

/-- A frame's reception within a listen has ended at time `now`: the listen goes on, or ends with it at or after 56 character
times (R45, Table 3-2). -/
def State.endListenFrame (short : Bool) (now : Nat) (s : State) : State :=
  let t := s.keepFrame short
  if s.params.listenTime ≤ now then t.endListen now else { t with engine := { t.engine with state := .listen } }

/-- Reception of a reply ends at time `ended` and the reply is judged (R40 to R42): the attempt ends GOOD with its payload, or
GARBLED. -/
def State.endReply (short : Bool) (ended : Nat) (s : State) : State :=
  match s.engine.txn with
  | none => s
  | some t =>
    match t.expected with
    | none => s
    | some e =>
      match judgeFrame s.engine.reception.chars short e with
      | none => s.endAttempt ended .good (some (framePayload s.engine.reception.chars))
      | some r => s.endAttempt ended (.garbled r) none

/-- One character time of idle has followed a received character: the frame is short (R40 item 2). -/
def State.idleTimeout (s : State) : State :=
  if s.engine.state = .receive ∧ s.engine.reception.charBegan = none then
    let ended := s.engine.reception.idleFrom + s.params.charTime
    let t := s.passTo ended
    if t.inListen then t.endListenFrame true ended else t.endReply true ended
  else s

/-- The reply window has ended with no reply begun (R39). -/
def State.windowTimeout (s : State) : State :=
  if s.engine.state = .listen ∧ s.inListen = false then
    (s.passTo s.params.windowTime).endAttempt s.params.windowTime .noReply none
  else s

/-- The listen has ended with no frame in reception (R45). -/
def State.listenTimeout (s : State) : State :=
  if s.engine.state = .listen ∧ s.inListen = true then (s.passTo s.params.listenTime).endListen s.params.listenTime else s

/-- Before a character that begins at `t`, the waits that had ended by then: the idle that ends a frame, the reply window, the
listen (R39, R40 item 2, R45). -/
def State.catchUp (t : Nat) (s : State) : State :=
  let u := if s.engine.reception.idleFrom + s.params.charTime < t then s.idleTimeout else s
  if u.inListen then (if u.params.listenTime ≤ t then u.listenTimeout else u)
  else (if u.params.windowTime < t then u.windowTimeout else u)

/-- A character begins at time `t`, as judged at the middle of its start bit (R33, R39, R46): within a wait it is the reply's
or a frame's first, within a reception its next; otherwise it is stray (R48). -/
def State.beginCharacter (t : Nat) (s : State) : State :=
  match s.engine.state with
  | .listen =>
    { s with engine := { s.engine with
        state := .receive
        clock := max s.engine.clock (t + s.params.judgeTime)
        reception := { s.engine.reception with charBegan := some t, chars := [], frameBegan := t } } }
  | .receive =>
    { s with engine := { s.engine with
        clock := max s.engine.clock (t + s.params.judgeTime)
        reception := { s.engine.reception with charBegan := some t } } }
  | _ => s

/-- Whether the Engine examines RXD (R50). -/
def State.listening (s : State) : Bool := s.engine.state == .listen || s.engine.state == .receive

/-- The earliest time at which a next character can begin: the reading of the last stop bit, up to which the character before
is in reception, and which comes before that bit's end (R33, R167). -/
def State.fallFrom (s : State) : Nat := s.engine.reception.idleFrom - (s.params.bitTime - s.params.judgeTime)

/-- A fall of RXD at time `t` that the middle of its start bit confirms (R33). A time at which the character before was still in
reception counts as the end of that reception (log entry 11). -/
def State.startCharacter (t : Nat) (s : State) : State :=
  if s.listening ∧ s.engine.reception.charBegan = none then
    let t := max t s.fallFrom
    (s.catchUp t).beginCharacter t
  else s

/-- The stop bit of the character in reception, begun at time `t`, has been read: it is taken out of reception, and idle counts
from its stop bit's end. -/
def State.endCharacter (t : Nat) (s : State) : State :=
  { s with engine := { s.engine with
      clock := max s.engine.clock (t + s.params.readTime)
      reception := { s.engine.reception with charBegan := none, idleFrom := t + s.params.charTime } } }

/-- A character of a reply, begun at time `t`, is gathered (R40, R43): a flag-1 character after the first ends reception before
itself, as it begins; a complete frame ends with its last stop bit. -/
def State.gatherReply (c : RxChar) (t : Nat) (s : State) : State :=
  let r := s.engine.reception
  if c.flag ∧ r.chars ≠ [] then s.endReply true t
  else
    let u := s.setReception { r with chars := r.chars ++ [c] }
    let u :=
      match u.engine.txn with
      | some x => u.setTxn (some { x with errorMap := markError x.errorMap r.chars.length c })
      | none => u
    if receptionComplete u.engine.reception.chars then u.endReply false r.idleFrom else u

/-- A character of a listen frame, begun at time `t`, is gathered (R46): a flag-1 character after the first ends the frame
before itself and begins a new one, or ends the listen when it began at or after 56 character times. -/
def State.gatherListen (c : RxChar) (t : Nat) (s : State) : State :=
  let r := s.engine.reception
  if c.flag ∧ r.chars ≠ [] then
    let u := s.keepFrame true
    if s.params.listenTime ≤ t then u.endListen t
    else u.setReception { u.engine.reception with chars := [c], frameBegan := t }
  else
    let u := s.setReception { r with chars := r.chars ++ [c] }
    if receptionComplete u.engine.reception.chars then u.endListenFrame false r.idleFrom else u

/-- The beginning of a character that no START_BIT has announced: back to back with what came before it, and no earlier than
the reading of its stop bit now allows (log entry 7). -/
def State.presumedBegin (s : State) : Nat := max s.engine.reception.idleFrom (s.engine.clock - s.params.readTime)

/-- A received character is handed to frame reception (R33, R40, R46). -/
def State.receiveCharacter (c : RxChar) (s : State) : State :=
  let u := if s.engine.reception.charBegan = none then s.startCharacter s.presumedBegin else s
  match u.engine.state, u.engine.reception.charBegan with
  | .receive, some t =>
    if u.inListen then (u.endCharacter t).gatherListen c t else (u.endCharacter t).gatherReply c t
  | _, _ => u

/-! ### Grants (3.3) -/

/-- A granted transaction begins: its record is created, the Engine enters SEND, and the relay-burst count is written (R52,
R57, R58). -/
def State.beginTxn (t : Txn) (burst : Nat) (s : State) : State :=
  let u := s.enterEngine .send
  { u with engine := { u.engine with txn := some t, burst := burst } }

/-- A transaction record at its first attempt. -/
def newTxn (kind : TxnKind) (slot : Option Slot) (x : Option Identity) (a : TrunkAddress) (tag : Option Byte)
    (frame : List Byte) (e : Option Expected) (attempt maxAttempts : Nat) : Txn :=
  { kind := kind, slot := slot, identity := x, address := a, tag := tag, frame := frame, expected := e,
    attempt := attempt, maxAttempts := maxAttempts, errorMap := 0, lastOutcome := none, reply := none }

/-- The grant of the Offer List head (R91). -/
def State.grantOffer (o : Offer) (s : State) : State :=
  match s.lease o.slot with
  | none => s
  | some l =>
    let most := 1 + s.params.offerRetries
    let a := TrunkAddress.station l.address
    s.beginTxn (newTxn .offer (some o.slot) (some l.identity) a none
      (offerFrame l.identity l.address s.params.leaseTerm) (some ⟨a, .accept, some l.identity⟩)
      (min (o.attempts + 1) most) most) 0

/-- The slot, identity and tag a RELEASE captures: those of a lease entry, none for an address alone (R151). -/
def State.releaseCapture (e : Release) (s : State) : Option Slot × Option Identity × Option Byte :=
  match e.reason with
  | .retire n tag => (some n, (s.lease n).map (fun l => l.identity), some tag)
  | _ => (none, none, none)

/-- The grant of the Release Queue head (R151). -/
def State.grantRelease (e : Release) (rest : List Release) (s : State) : State :=
  let a := TrunkAddress.station e.address
  let c := s.releaseCapture e
  (s.setReleases ({ e with inFlight := true } :: rest)).beginTxn
    (newTxn .release c.1 c.2.1 a c.2.2 (releaseFrame e.address) (some ⟨a, .released, none⟩) 1
      (1 + s.params.releaseRetries)) 0

/-- The relay-burst count after a RELAY grant: one more, held at 8 (R58). -/
def State.nextBurst (s : State) : Nat := min (s.engine.burst + 1) 8

/-- The grant of a relay to a bound lease (R157, R158). -/
def State.grantRelay (e : Relay) (rest : List Relay) (n : Slot) (l : Lease) (s : State) : State :=
  let a := TrunkAddress.station l.address
  let most := if e.waitReply then 1 + e.retries.getD s.params.relayRetries else 1
  (s.setRelays ({ e with inFlight := true } :: rest)).beginTxn
    (newTxn .relay (some n) (some l.identity) a (some e.tag) (relayFrame a e.payload)
      (if e.waitReply then some ⟨a, .relayed, none⟩ else none) 1 most) s.nextBurst

/-- The grant of a relay to every station (R157, R158). -/
def State.grantBroadcast (e : Relay) (rest : List Relay) (s : State) : State :=
  (s.setRelays ({ e with inFlight := true } :: rest)).beginTxn
    (newTxn .relay none none .broadcast (some e.tag) (relayFrame .broadcast e.payload) none 1 1) s.nextBurst

/-- The grant of the pending probe (R135). -/
def State.grantProbe (a : Address) (s : State) : State :=
  let st := TrunkAddress.station a
  let u := { s with census := { s.census with pending := some { address := a, inFlight := true } } }
  u.beginTxn (newTxn .probe none none st none (probeFrame a) (some ⟨st, .answer, none⟩) 1 1) 0

/-- The grant of the pending poll (R112). -/
def State.grantPoll (n : Slot) (s : State) : State :=
  match s.lease n with
  | none => s
  | some l =>
    let a := TrunkAddress.station l.address
    let u := { s with poll := { s.poll with pending := some { slot := n, inFlight := true } } }
    u.beginTxn (newTxn .poll (some n) (some l.identity) a none (pollFrame l.address s.params.leaseTerm)
      (some ⟨a, .status, none⟩) 1 (1 + s.params.pollRetries)) 0

/-- The grant of a SOLICIT: solicit due is cleared, and the solicit number stands in the frame and advances as the frame's
first character begins (R36, R57, R76). -/
def State.grantSolicit (s : State) : State :=
  let u := { s with enrol := { s.enrol with solicitDue := false, solicitNumber := s.enrol.solicitNumber + 1 } }
  u.beginTxn (newTxn .solicit none none .newcomer none (solicitFrame s.enrol.solicitNumber)
    (some expectedJoin) 1 1) 0

/-- The pending poll, when it waits for a grant (R106). -/
def State.waitingPoll (s : State) : Option Slot :=
  match s.poll.pending with
  | some p => if p.inFlight then none else some p.slot
  | none => none

/-- The pending probe, when it waits for a grant (R135). -/
def State.waitingProbe (s : State) : Option Address :=
  match s.census.pending with
  | some p => if p.inFlight then none else some p.address
  | none => none

/-- The sources behind the Relay Queue, in the order of Table 3-6: the census probe, the poll, the solicit. -/
def State.grantLow (s : State) : State :=
  match s.waitingProbe with
  | some a => s.grantProbe a
  | none =>
    match s.waitingPoll with
    | some n => s.grantPoll n
    | none => if s.enrol.solicitDue then s.grantSolicit else s

/-- The Relay Queue head chosen by the arbiter completes NOT_BOUND without use of the trunk (R59, R157). -/
def State.refuseRelay (e : Relay) (rest : List Relay) (n : Slot) (s : State) : State :=
  (s.setRelays rest).settle .relay e.tag .notBound [slotByte n, leaseCode (s.lease n)]

/-- The poll that goes ahead of the Relay Queue and the census by the relay-burst preference (R58). -/
def State.preferredPoll (s : State) : Option Slot :=
  if s.params.relayBurst ≤ s.engine.burst then s.waitingPoll else none

/-- The arbiter below the Offer List and the Release Queue (R58, R59, Table 3-6). A relay whose lease is not bound leaves the
queue and the arbiter looks again at once; `queue` is the Relay Queue. -/
def State.arbitrateRelays : List Relay → State → State
  | [], s =>
    match s.preferredPoll with
    | some n => s.grantPoll n
    | none => s.grantLow
  | e :: rest, s =>
    match s.preferredPoll with
    | some n => s.grantPoll n
    | none =>
      match e.target with
      | .broadcast => s.grantBroadcast e rest
      | .slot n =>
        match s.lease n with
        | some l =>
          if isBound (some l) then s.grantRelay e rest n l
          else (s.refuseRelay e rest n).arbitrateRelays rest
        | none => (s.refuseRelay e rest n).arbitrateRelays rest

/-- The arbiter's grant (R57, Table 3-6): offers, then releases, then the rest. -/
def State.arbitrate (s : State) : State :=
  match s.enrol.offers, s.releases with
  | o :: _, _ => s.grantOffer o
  | [], e :: rest => s.grantRelease e rest
  | [], [] => s.arbitrateRelays s.relays

/-- Whether some source has work (R57). -/
def State.hasWork (s : State) : Bool :=
  !s.enrol.offers.isEmpty || !s.releases.isEmpty || !s.relays.isEmpty || s.waitingProbe.isSome ||
    s.waitingPoll.isSome || s.enrol.solicitDue

/-! ### Trunk faults (3.5) -/

/-- The fault-grace timer as a rising loads it: with FAULT_GRACE 0 it reaches 0 at the rising (R68). -/
def Grace.load (ticks : Nat) : Grace := if ticks = 0 then .spent else .running ticks

/-- A high TRUNK_FAULT is taken as a rising: LINE_FAULT is set and the fault-grace timer is loaded and runs (R65, R68). -/
def State.beginFault (s : State) : State :=
  State.raise .lineFault { s with engine := { s.engine with
    grace := .load s.params.faultGrace, dropDue := decide (s.params.faultGrace = 0) } }

/-- The Engine leaves the trunk at a rising: to HELD, or to OFF when a DISABLE is pending (R61, R66). -/
def State.leaveTrunk (s : State) : State :=
  match s.engine.pendingDisable with
  | some _ => s.enterOff
  | none => s.enterEngine .held

/-- The rising of TRUNK_FAULT at the Engine (Table 3-8): the transaction in flight ends LINE_FAULT. -/
def State.abortForFault (s : State) : State :=
  match s.engine.state with
  | .off => s
  | _ =>
    match s.engine.txn with
    | none => s.leaveTrunk
    | some t => ((s.setTxn none).txnDone { t with lastOutcome := some .lineFault } .lineFault).leaveTrunk

/-- Every slot's lease as a fault drop leaves it, and its slot out of the ring (R69, R70). The Release Queue and the Offer
List are settled by the functions beside this one. -/
def State.dropLease (s : State) (n : Slot) : State :=
  match s.lease n with
  | none => s
  | some l =>
    match l.status with
    | .bound _ _ => s.loseLease n l s.params.quarantineMin
    | .suspect _ _ => s.loseLease n l s.params.quarantineMin
    | .offered _ => s.abandonOffer n s.params.quarantineMin
    | _ => s

/-- The Release Queue's entries are settled from head to tail (R63, R64, R70): each lease entry frees its lease and answers
its graceful RETIRE, each address-only entry goes without effect. `full` adds the frozen term to the quarantine, and
`withData` carries the data that a LINE_FAULT response carries. -/
def State.settleReleases (full withData : Bool) (r : Result) : List Release → State → State
  | [], s => s
  | e :: rest, s =>
    match e.reason with
    | .retire n tag =>
      let t := s.endReleasing n full
      (t.settle .retire tag r (if withData then t.releaseData n e.address false 0 else [])).settleReleases full withData r rest
    | .clash => s.settleReleases full withData r rest
    | .conflict => s.settleReleases full withData r rest
    | .redirect => s.settleReleases full withData r rest

/-- The fault drop (R69, R70), one change: every lease a powered-down station cannot hold is ended, the Offer List and the
Release Queue are emptied, and the walk that may follow finds the ring empty (R126). -/
def State.takeFaultDrop (s : State) : State :=
  let t := allSlots.foldl State.dropLease s
  let t := { t with enrol := { t.enrol with offers := [] } }
  let t := (t.setReleases []).settleReleases false true .lineFault s.releases
  (t.raise .faultDrop).pollSettle

/-- The fault drop, when the fault-grace timer has made it due (R68). -/
def State.dropEvent (s : State) : State :=
  if s.engine.dropDue then State.takeFaultDrop { s with engine := { s.engine with dropDue := false } } else s

/-! ### Trunk control (3.4) -/

/-- The engine state as a byte of a response. -/
def State.engineByte (s : State) : Byte := s.engine.state.code

/-- The level ENABLE finds decides between IDLE and HELD (R60). -/
def State.enableTrunk (s : State) : State :=
  if s.engine.state = .off then s.enterEngine (if s.pins.fault then .held else .idle) else s

/-- TRUNK_CONTROL with ENABLE, or with an action or an argument count out of range (R60, R193). -/
def enableRequest (tag : Byte) (args : List Byte) (s : State) : State :=
  match args with
  | [k] =>
    if k ≠ 1 then s.answer .trunkControl tag .badArg []
    else if s.engine.pendingDisable.isSome then s.answer .trunkControl tag .busy [s.engineByte]
    else
      let t := s.enableTrunk
      t.answer .trunkControl tag .ok [t.engineByte]
  | _ => s.answer .trunkControl tag .badArg []

/-- TRUNK_CONTROL with DISABLE (R61). -/
def disableRequest (tag : Byte) (_args : List Byte) (s : State) : State :=
  if s.engine.pendingDisable.isSome then s.answer .trunkControl tag .busy [s.engineByte]
  else
    match s.engine.state with
    | .off => s.answer .trunkControl tag .ok [EngineState.off.code]
    | .idle => s.enterOff.answer .trunkControl tag .ok [EngineState.off.code]
    | .held => s.enterOff.answer .trunkControl tag .ok [EngineState.off.code]
    | _ => State.defer .trunkControl { s with engine := { s.engine with pendingDisable := some tag } }

/-- Every relay is removed and answered CANCELLED, from head to tail (R63, R64). -/
def State.cancelRelays : List Relay → State → State
  | [], s => s
  | e :: rest, s => (s.settle .relay e.tag .cancelled []).cancelRelays rest

/-- The census after a RESET_TRUNK (R63, R145). -/
def State.settleCensus (s : State) : State :=
  { s with census := { s.census with state := .idle, stepPending := false, pending := none, detached := none } }

/-- The Poll Scheduler after a RESET_TRUNK (R63, R125): no round, no mark, no poll; in CONTINUOUS with members a new round
begins at once. -/
def State.settlePolling (s : State) : State :=
  let t := s.clearMarks
  let t := { t with poll := { t.poll with
    pending := none
    detached := none
    state := if t.poll.mode = .off then .off else .wait } }
  if t.poll.mode = .continuous ∧ t.poll.ring ≠ [] then t.beginRound else t

/-- RESET_TRUNK stops the trunk and settles all trunk work (R62, R63), its responses in the order of R64: the relays, the
graceful RETIREs, a pending DISABLE. -/
def State.resetTrunk (s : State) : State :=
  let t := (s.setRelays []).cancelRelays s.relays
  let t := (t.setReleases []).settleReleases true false .cancelled s.releases
  let t := s.enrol.offers.foldl (fun u o => u.abandonOffer o.slot u.offerQuarantine) t
  let t := { t with enrol := { t.enrol with offers := [], solicitDue := false } }
  let t := t.settleCensus.settlePolling
  let t := { t with engine := { t.engine with txn := none, burst := 0 } }
  t.enterOff

/-- TRUNK_CONTROL with RESET_TRUNK (R62 to R64): its own response comes last. -/
def resetTrunkRequest (tag : Byte) (_args : List Byte) (s : State) : State :=
  s.resetTrunk.answer .trunkControl tag .ok [EngineState.off.code]

/-- The in-flight kind of READ_ENGINE: NONE when no transaction is in flight (R71). -/
def State.inFlightCode (s : State) : Byte :=
  match s.engine.txn with
  | some t => t.kind.code
  | none => 0

/-- READ_ENGINE (R71). -/
def readEngineRequest (tag : Byte) (args : List Byte) (s : State) : State :=
  match args with
  | [] =>
    s.answer .readEngine tag .ok
      ([s.engineByte, s.inFlightCode, markByte s.pins.fault, byteOf s.relays.length, byteOf s.releases.length,
        byteOf s.enrol.offers.length, byteOf s.poll.ring.length] ++ halfBytes s.poll.rounds ++
        halfBytes s.engine.collisions)
  | _ => s.answer .readEngine tag .badArg []

/-! ### Meanings -/

/-- TRUNK_CONTROL ENABLE is taken (R60). -/
def execEnable (s : State) : Host.Outcome State Fault Refusal := takeRequest .enable enableRequest s
/-- TRUNK_CONTROL DISABLE is taken (R61). -/
def execDisable (s : State) : Host.Outcome State Fault Refusal := takeRequest .disable disableRequest s
/-- TRUNK_CONTROL RESET_TRUNK is taken (R62 to R64). -/
def execResetTrunk (s : State) : Host.Outcome State Fault Refusal := takeRequest .resetTrunk resetTrunkRequest s
/-- READ_ENGINE is taken (R71). -/
def execReadEngine (s : State) : Host.Outcome State Fault Refusal := takeRequest .readEngine readEngineRequest s

/-- GRANT: in IDLE the arbiter grants one transaction (R57 to R59). -/
def execGrant (s : State) : Host.Outcome State Fault Refusal :=
  whenRunning (fun s => if s.engine.state = .idle then s.arbitrate else s) s

/-- FRAME_SENT: the last stop bit ends; the wait of Table 2-6 opens, or the attempt ends GOOD (R38, R51). -/
def execFrameSent (s : State) : Host.Outcome State Fault Refusal :=
  whenRunning (fun s =>
    if s.engine.state = .send then
      match s.engine.txn with
      | none => s
      | some t =>
        if t.expected.isSome then s.enterEngine .listen
        else
          let ended := t.frame.length * s.params.charTime
          (s.passTo ended).endAttempt ended .good none
    else s) s

/-- START_BIT: the fall is taken as a character beginning when RXD reads 0 at the middle of the start bit, and as noise, with
no effect, when it reads 1 (R33). -/
def execStartBit (began : Nat) (middle : Bool) (s : State) : Host.Outcome State Fault Refusal :=
  whenRunning (fun s => if middle then s else s.startCharacter began) s

/-- CHARACTER_RECEIVED: the character is judged and gathered into frame reception (R33, R40, R46). -/
def execCharacterReceived (data : Byte) (flag parity stop : Bool) (s : State) : Host.Outcome State Fault Refusal :=
  whenRunning (fun s => s.receiveCharacter (receivedCharacter data flag parity stop)) s

/-- REPLY_IDLE_TIMEOUT (R40 item 2). -/
def execReplyIdleTimeout (s : State) : Host.Outcome State Fault Refusal := whenRunning State.idleTimeout s
/-- REPLY_WINDOW_TIMEOUT (R39). -/
def execReplyWindowTimeout (s : State) : Host.Outcome State Fault Refusal := whenRunning State.windowTimeout s
/-- SOLICIT_LISTEN_END (R45). -/
def execSolicitListenEnd (s : State) : Host.Outcome State Fault Refusal := whenRunning State.listenTimeout s

/-- GUARD_END: the next attempt begins with the same frame, its number one more and its error map clear (R54); with no
transaction in flight the Engine enters IDLE, or OFF when a DISABLE is pending (R51, R61). -/
def execGuardEnd (s : State) : Host.Outcome State Fault Refusal :=
  whenRunning (fun s =>
    if s.engine.state = .guarding then
      match s.engine.txn with
      | some t => (s.enterEngine .send).setTxn (some { t with attempt := t.attempt + 1, errorMap := 0 })
      | none =>
        match s.engine.pendingDisable with
        | some _ => s.enterOff
        | none => s.enterEngine .idle
    else s) s

/-- TRUNK_FAULT_RISING (R65, R66). While RST# is low the pin alone changes; a pin already high does not rise. -/
def execTrunkFaultRising (s : State) : Host.Outcome State Fault Refusal :=
  if s.pins.fault then .next s
  else
    let t := { s with pins := { s.pins with fault := true } }
    whenRunning (fun t => t.beginFault.abortForFault) t

/-- TRUNK_FAULT_FALLING (R65, R67, R68). A fault drop that the timer made due before the falling is taken first: only a falling
before the timer reaches 0 prevents it (log entry 15). While RST# is low the pin alone changes; a pin already low does not
fall. -/
def execTrunkFaultFalling (s : State) : Host.Outcome State Fault Refusal :=
  if s.pins.fault then
    if s.pins.rstLow then .next { s with pins := { s.pins with fault := false } }
    else
      let t := s.dropEvent
      let u := { t with pins := { t.pins with fault := false }, engine := { t.engine with grace := .stopped } }
      .next (if u.engine.state = .held then u.enterEngine .guarding else u)
  else .next s

end Sys2Proof.Machine
end

