-- ==== Sys2Proof/Machine/Port.lean ====
section
/-! DEFINITION. The Host Port and both resets (chapter 09): accesses, frame assembly, the reading of responses, the answers the
Dispatcher gives itself, ECHO, RESET and RST#. -/
namespace Sys2Proof.Machine

/-! ### Accesses (9.1) -/

/-- Writes the access state. -/
def State.setAccess (a : Access) (s : State) : State := { s with host := { s.host with access := a } }

/-- The bytes claimed by a frame in assembly (R183). -/
def Access.claimed : Access → Nat
  | .write (.inFrame n _) => n
  | _ => 0

/-- The bytes held in the Request FIFO by whole frames and markers (R183). -/
def requestBytes (es : List ReqEntry) : Nat := (es.map ReqEntry.size).sum

/-- The Request FIFO's free space (R183). -/
def State.requestSpace (s : State) : Nat :=
  Config.requestFifo - requestBytes s.host.requests - s.host.access.claimed

/-- The six-byte port-status record (R188). -/
def State.portStatus (s : State) : List Byte :=
  natBytes s.requestSpace ++ natBytes s.host.responses.length ++ halfBytes s.causes.flags

/-- The access state that an access byte gives (Table 9-1); a READ_STATUS access captures its record now (R188). -/
def State.accessOf (s : State) (b : Byte) : Access :=
  if b = 0x01 then .write .expectLength
  else if b = 0x02 then .readResponse none false
  else if b = 0x03 then .readStatus s.portStatus
  else .ignore

/-! ### Frame assembly (9.2) -/

/-- Writes the assembly state of the WRITE access. -/
def State.setAssembly (a : Assembly) (s : State) : State := s.setAccess (.write a)

/-- A whole frame or a marker joins the tail of the Request FIFO (R183, R186). -/
def State.enqueue (e : ReqEntry) (s : State) : State :=
  { s with host := { s.host with requests := s.host.requests ++ [e] } }

/-- A length byte (R183, R186). -/
def State.takeLength (b : Byte) (s : State) : State :=
  let n := b.toNat
  if 3 ≤ n ∧ n ≤ 24 then
    if n ≤ s.requestSpace then s.setAssembly (.inFrame n [b])
    else (s.raise .reqOverrun).setAssembly (.skip (n - 1))
  else if 1 ≤ s.requestSpace then (s.enqueue (.marker b)).setAssembly .discard
  else (s.raise .reqOverrun).setAssembly .discard

/-- A complete byte of a WRITE access (R183). -/
def State.assemble (b : Byte) (a : Assembly) (s : State) : State :=
  match a with
  | .expectLength => s.takeLength b
  | .inFrame n got =>
    if n ≤ got.length + 1 then (s.setAssembly .expectLength).enqueue (.frame (got ++ [b]))
    else s.setAssembly (.inFrame n (got ++ [b]))
  | .skip m => s.setAssembly (if m ≤ 1 then .expectLength else .skip (m - 1))
  | .discard => s

/-! ### Reading responses (9.3) -/

/-- The byte to send, as the Response FIFO stands now (R187); filler for the rest of an access that a RESET cut (R203). -/
def State.chooseByte (spent : Bool) (s : State) : ResponseByte :=
  if spent then .filler
  else
    match s.host.responses with
    | b :: _ => .head b
    | [] => .filler

/-- A byte's eighth bit has been sampled: a head byte leaves the Response FIFO, a filler takes nothing (R187). -/
def State.sendByte (out : ResponseByte) (s : State) : State :=
  match out with
  | .head _ => { s with host := { s.host with responses := s.host.responses.drop 1 } }
  | .filler => s

/-- Whether MISO is driven: while CS# is low, and never while RST# is low (R182, R202). -/
def State.misoDriven (s : State) : Bool := s.pins.csLow && !s.pins.rstLow

/-- The byte MISO carries: in a READ_RESPONSE access the byte chosen, in a READ_STATUS access the next byte of the record and
then filler, and 0 elsewhere (R182, R187, R188). -/
def State.misoByte (s : State) : Byte :=
  match s.host.access with
  | .readResponse (some (.head b)) _ => b
  | .readStatus record => record.headD 0
  | _ => 0

/-- The eight bits of a byte in the order they travel on MOSI and MISO: most significant first, one for each SCK period
(R182). -/
def portBits (b : Byte) : List Bool := (List.range 8).map (fun i => b.getLsbD (7 - i))

/-- The bits that MISO carries at the eight rising SCK edges of the present byte (R182). -/
def State.misoBits (s : State) : List Bool := portBits s.misoByte

/-- The byte that the bits sampled from MOSI at rising SCK edges make, the first bit its most significant: a byte is complete
with its eighth bit, and the bits of an incomplete one make none (R182). -/
def mosiByte (bits : List Bool) : Option Byte :=
  if bits.length = 8 then some (byteOf (bits.foldl (fun n b => 2 * n + b.toNat) 0)) else none

/-! ### The Dispatcher's own answers, ECHO -/

/-- BAD_FRAME: request code 00h, tag 00h, and the length byte as received (R186). -/
def badFrameRequest (e : ReqEntry) (s : State) : State :=
  match e with
  | .marker b => s.respond 0x00 0x00 .badFrame [b]
  | .frame _ => s

/-- UNKNOWN_REQUEST: the frame's own code and tag, with no data (R193). -/
def unknownRequestAnswer (e : ReqEntry) (s : State) : State :=
  match e with
  | .frame bytes => s.respond (frameCode bytes) (frameTag bytes) .unknownRequest []
  | .marker _ => s

/-- ECHO (R200); more than 21 argument bytes would be a wrong count (R193). -/
def echoRequest (tag : Byte) (args : List Byte) (s : State) : State :=
  if args.length ≤ 21 then s.answer .echo tag .ok args else s.answer .echo tag .badArg []

/-! ### Resets (9.7) -/

/-- A part just out of either reset: RESTARTED is set, and a high TRUNK_FAULT is taken as a rising (R65, R202, R205). -/
def State.restart (s : State) : State :=
  let t := s.raise .restarted
  if t.pins.fault then t.beginFault else t

/-- The access in progress after a RESET request (R201, R203): a WRITE access discards its remaining bytes, a READ_RESPONSE
access sends filler to its end, and the others go on. -/
def Access.afterReset : Access → Access
  | .write _ => .write .discard
  | .readResponse out _ => .readResponse (out.map (fun _ => .filler)) true
  | a => a

/-- Every block at its reset value after a RESET request: the pins, the access state and the waiting commands stay (R201). -/
def State.resetBlocks (s : State) : State :=
  (State.setAccess s.host.access.afterReset (State.held s.pins s.pending)).restart

/-- RESET (R201); with arguments it is answered BAD_ARG (R191). -/
def resetRequest (tag : Byte) (args : List Byte) (s : State) : State :=
  match args with
  | [] => s.resetBlocks.answer .reset tag .ok []
  | _ => s.answer .reset tag .badArg []

/-! ### Meanings -/

/-- RST_ASSERT: every block is held at its reset value (R202); RST# already low does not fall. -/
def execRstAssert (s : State) : Host.Outcome State Fault Refusal :=
  if s.pins.rstLow then .next s else .next (State.held { s.pins with rstLow := true } s.pending)

/-- RST_RISE: the part starts from its reset values, in READY with CS# high and in IGNORE with CS# low (R181, R202); RST#
already high does not rise. -/
def execRstRise (s : State) : Host.Outcome State Fault Refusal :=
  if s.pins.rstLow then
    let t := State.held { s.pins with rstLow := false } s.pending
    .next ((t.setAccess (if t.pins.csLow then .ignore else .ready)).restart)
  else .next s

/-- CS_FALL: from READY the state becomes SELECT (R181). While RST# is low CS# is not examined and its level alone changes. -/
def execCsFall (s : State) : Host.Outcome State Fault Refusal :=
  if s.pins.csLow then .next s
  else
    let t := { s with pins := { s.pins with csLow := true } }
    whenRunning (fun t => if t.host.access = .ready then t.setAccess .select else t) t

/-- CS_RISE: the state becomes READY; a frame in assembly is discarded with REQ_OVERRUN (R181, R185). -/
def execCsRise (s : State) : Host.Outcome State Fault Refusal :=
  if s.pins.csLow then
    let t := { s with pins := { s.pins with csLow := false } }
    whenRunning (fun t =>
      match t.host.access with
      | .write (.inFrame _ _) => (t.raise .reqOverrun).setAccess .ready
      | _ => t.setAccess .ready) t
  else .next s

/-- ACCESS_BYTE: in SELECT the access byte gives the access (R181, R188). -/
def execAccessByte (b : Byte) (s : State) : Host.Outcome State Fault Refusal :=
  whenRunning (fun s => if s.host.access = .select then s.setAccess (s.accessOf b) else s) s

/-- REQUEST_BYTE: a byte of a WRITE access (R183). -/
def execRequestByte (b : Byte) (s : State) : Host.Outcome State Fault Refusal :=
  whenRunning (fun s =>
    match s.host.access with
    | .write a => s.assemble b a
    | _ => s) s

/-- RESPONSE_BYTE_BEGIN: the byte to send is chosen (R187); a byte already begun goes on. -/
def execResponseByteBegin (s : State) : Host.Outcome State Fault Refusal :=
  whenRunning (fun s =>
    match s.host.access with
    | .readResponse none spent => s.setAccess (.readResponse (some (s.chooseByte spent)) spent)
    | _ => s) s

/-- RESPONSE_BYTE_READ: the byte is complete (R187). A byte that no RESPONSE_BYTE_BEGIN announced is chosen as the FIFO stands
now (log entry 7). In a READ_STATUS access the byte is the next of the record, or filler (R188, log entry 20). -/
def execResponseByteRead (s : State) : Host.Outcome State Fault Refusal :=
  whenRunning (fun s =>
    match s.host.access with
    | .readResponse out spent => (s.sendByte (out.getD (s.chooseByte spent))).setAccess (.readResponse none spent)
    | .readStatus record => s.setAccess (.readStatus (record.drop 1))
    | _ => s) s

/-- BAD_FRAME: the Dispatcher takes a marker (R186). -/
def execBadFrame (s : State) : Host.Outcome State Fault Refusal := takeHead .badFrame badFrameRequest s
/-- UNKNOWN_REQUEST: the Dispatcher takes a frame whose code is not in the catalogue (R193). -/
def execUnknownRequest (s : State) : Host.Outcome State Fault Refusal := takeHead .unknownRequest unknownRequestAnswer s
/-- ECHO is taken (R200). -/
def execEcho (s : State) : Host.Outcome State Fault Refusal := takeRequest .echo echoRequest s
/-- RESET is taken (R201). -/
def execReset (s : State) : Host.Outcome State Fault Refusal := takeRequest .reset resetRequest s

end Sys2Proof.Machine
end

