-- ==== Sys2Proof/Machine/TimingUnit.lean ====
section
/-! DEFINITION. Timing and configuration (chapter 08): the tick, the seconds strobe, the interval timers, CONFIGURE and
READ_CONFIG. -/
namespace Sys2Proof.Machine

/-! ### The configuration record (8.4) -/

/-- The parameters by name (Table 8-4). -/
inductive Param where
  | refclkKhz | bitDivider | oddStep | replyWait | guardTime | pollRetries | offerRetries | releaseRetries | relayRetries
  | suspectAfter | lostAfter | leaseTerm | quarantineMin | autoReclaim | solicitPeriod | pollPeriod | censusStepMs
  | stepSource | windowSize | qualityLimit | faultGrace | relayBurst
  deriving DecidableEq, Repr

/-- The parameters in the order of their identifiers 01h..16h. -/
def Param.all : List Param :=
  [.refclkKhz, .bitDivider, .oddStep, .replyWait, .guardTime, .pollRetries, .offerRetries, .releaseRetries, .relayRetries,
   .suspectAfter, .lostAfter, .leaseTerm, .quarantineMin, .autoReclaim, .solicitPeriod, .pollPeriod, .censusStepMs,
   .stepSource, .windowSize, .qualityLimit, .faultGrace, .relayBurst]

/-- The parameter of an identifier, none outside 01h..16h. -/
def Param.ofId (id : Nat) : Option Param := if id = 0 then none else Param.all[id - 1]?

/-- The value of a parameter. -/
def Params.get (p : Params) : Param → Nat
  | .refclkKhz => p.refclkKhz | .bitDivider => p.bitDivider | .oddStep => p.oddStep | .replyWait => p.replyWait
  | .guardTime => p.guardTime | .pollRetries => p.pollRetries | .offerRetries => p.offerRetries
  | .releaseRetries => p.releaseRetries | .relayRetries => p.relayRetries | .suspectAfter => p.suspectAfter
  | .lostAfter => p.lostAfter | .leaseTerm => p.leaseTerm | .quarantineMin => p.quarantineMin
  | .autoReclaim => p.autoReclaim | .solicitPeriod => p.solicitPeriod | .pollPeriod => p.pollPeriod
  | .censusStepMs => p.censusStepMs | .stepSource => p.stepSource | .windowSize => p.windowSize
  | .qualityLimit => p.qualityLimit | .faultGrace => p.faultGrace | .relayBurst => p.relayBurst

/-- The record with one parameter written. -/
def Params.put (p : Params) (v : Nat) : Param → Params
  | .refclkKhz => { p with refclkKhz := v } | .bitDivider => { p with bitDivider := v }
  | .oddStep => { p with oddStep := v } | .replyWait => { p with replyWait := v }
  | .guardTime => { p with guardTime := v } | .pollRetries => { p with pollRetries := v }
  | .offerRetries => { p with offerRetries := v } | .releaseRetries => { p with releaseRetries := v }
  | .relayRetries => { p with relayRetries := v } | .suspectAfter => { p with suspectAfter := v }
  | .lostAfter => { p with lostAfter := v } | .leaseTerm => { p with leaseTerm := v }
  | .quarantineMin => { p with quarantineMin := v } | .autoReclaim => { p with autoReclaim := v }
  | .solicitPeriod => { p with solicitPeriod := v } | .pollPeriod => { p with pollPeriod := v }
  | .censusStepMs => { p with censusStepMs := v } | .stepSource => { p with stepSource := v }
  | .windowSize => { p with windowSize := v } | .qualityLimit => { p with qualityLimit := v }
  | .faultGrace => { p with faultGrace := v } | .relayBurst => { p with relayBurst := v }

/-- Whether a value lies in a parameter's range (Table 8-4, R173). -/
def Params.admits (p : Params) (v : Nat) : Param → Bool
  | .refclkKhz => decide (4000 ≤ v ∧ v ≤ 32000)
  | .bitDivider => decide (3 ≤ v ∧ v ≤ 4095)
  | .oddStep => decide (v ≤ 1)
  | .replyWait => decide (1 ≤ v ∧ v ≤ 15)
  | .guardTime => decide (1 ≤ v ∧ v ≤ 15)
  | .pollRetries => decide (v ≤ 3)
  | .offerRetries => decide (v ≤ 3)
  | .releaseRetries => decide (v ≤ 3)
  | .relayRetries => decide (v ≤ 3)
  | .suspectAfter => decide (1 ≤ v ∧ v ≤ p.lostAfter)
  | .lostAfter => decide (p.suspectAfter ≤ v ∧ v ≤ 15)
  | .leaseTerm => decide (1 ≤ v ∧ v ≤ 255)
  | .quarantineMin => decide (v ≤ 255)
  | .autoReclaim => decide (v ≤ 1)
  | .solicitPeriod => decide (100 ≤ v ∧ v ≤ 60000)
  | .pollPeriod => decide (10 ≤ v ∧ v ≤ 60000)
  | .censusStepMs => decide (10 ≤ v ∧ v ≤ 60000)
  | .stepSource => decide (v ≤ 1)
  | .windowSize => decide (v = 16 ∨ v = 256)
  | .qualityLimit => decide (v ≤ 255)
  | .faultGrace => decide (v ≤ 5000)
  | .relayBurst => decide (1 ≤ v ∧ v ≤ 8)

/-- Whether the condition of Table 8-4's last column holds (R174). -/
def State.canWrite (s : State) : Param → Bool
  | .refclkKhz => decide (s.engine.state = .off)
  | .bitDivider | .oddStep | .replyWait | .guardTime => decide (s.engine.state = .off ∨ s.engine.state = .held)
  | .stepSource => decide (s.census.state = .idle)
  | _ => true

/-- Writes the configuration record. -/
def State.setParams (p : Params) (s : State) : State := { s with timing := { s.timing with params := p } }

/-- Changes every lease record that is not FREE. -/
def State.mapLeases (f : Lease → Lease) (s : State) : State :=
  allSlots.foldl (fun t n => match t.lease n with | some l => t.putLease n (some (f l)) | none => t) s

/-- A miss_count of 0 in a lease that has one (R176). -/
def Lease.clearMiss (l : Lease) : Lease :=
  match l.status with
  | .bound term _ => { l with status := .bound term 0 }
  | .suspect term _ => { l with status := .suspect term 0 }
  | _ => l

/-- An open quality window restarted (R123). -/
def Lease.restartWindow (l : Lease) : Lease := { l with windowAttempts := 0, windowBad := 0 }

/-- The tick prescaler restarts with its count at 0 (R165). -/
def State.restartPrescaler (s : State) : State := { s with timing := { s.timing with prescaler := 0 } }

/-- The further effects of a write that is taken, where `before` is the value it replaces (R175). -/
def State.writeEffect (q : Param) (before after : Nat) (s : State) : State :=
  match q with
  | .refclkKhz => s.restartPrescaler
  | .suspectAfter => s.mapLeases Lease.clearMiss
  | .lostAfter => s.mapLeases Lease.clearMiss
  | .windowSize => if before = after then s else s.mapLeases Lease.restartWindow
  | _ => s

/-- CONFIGURE (R173 to R176). -/
def configureRequest (tag : Byte) (args : List Byte) (s : State) : State :=
  match args with
  | [id, lo, hi] =>
    match Param.ofId id.toNat with
    | none => s.answer .configure tag .badArg (id :: natBytes 0)
    | some q =>
      let v := (halfOf lo hi).toNat
      let before := s.params.get q
      if s.params.admits v q = false then s.answer .configure tag .badArg (id :: natBytes before)
      else if s.canWrite q = false then s.answer .configure tag .busy (id :: natBytes before)
      else
        let t := (s.setParams (s.params.put v q)).writeEffect q before v
        t.answer .configure tag .ok ((id :: natBytes before) ++ natBytes v)
  | _ => s.answer .configure tag .badArg []

/-- READ_CONFIG (R179). -/
def readConfigRequest (tag : Byte) (args : List Byte) (s : State) : State :=
  match args with
  | [first, count] =>
    let f := first.toNat
    let c := count.toNat
    if 1 ≤ f ∧ f ≤ 22 ∧ 1 ≤ c ∧ c ≤ 16 ∧ f + c - 1 ≤ 22 then
      s.answer .readConfig tag .ok
        ([first, count] ++ (((Param.all.drop (f - 1)).take c).map (fun q => natBytes (s.params.get q))).flatten)
    else s.answer .readConfig tag .badArg []
  | _ => s.answer .readConfig tag .badArg []

/-! ### The seconds strobe (1.4, 8.1) -/

/-- One lease at a strobe: a term counts down and may expire (R14), a quarantine counts down and may be over (R15). -/
def State.strobeLease (s : State) (n : Slot) : State :=
  match s.lease n with
  | none => s
  | some l =>
    match l.status with
    | .bound term miss =>
      if term ≤ 1 then s.loseLease n l s.params.quarantineMin
      else s.putLease n (some { l with status := .bound (term - 1) miss })
    | .suspect term miss =>
      if term ≤ 1 then s.loseLease n l s.params.quarantineMin
      else s.putLease n (some { l with status := .suspect (term - 1) miss })
    | .lost q =>
      if q ≤ 1 ∧ s.params.autoReclaim = 1 then s.vacate n l 0
      else s.putLease n (some { l with status := .lost (q - 1) })
    | _ => s

/-- One address entry at a strobe (R16). -/
def strobeEntry : AddrEntry → AddrEntry
  | .quarantined n => if n ≤ 1 then .free else .quarantined (n - 1)
  | e => e

/-- One address at a strobe. -/
def State.strobeAddress (s : State) (a : Address) : State := s.putEntry a (strobeEntry (s.entry a))

/-- The strobe is one event: every address entry and every lease record is taken once, by the state it had when the strobe
was taken (R12). The entries go first, so that an address this strobe sets FREE is not counted down; the walk step that
expired members may call for follows at the end of the event (R100, log entry 9). -/
def State.takeStrobe (s : State) : State :=
  (allSlots.foldl State.strobeLease (allAddresses.foldl State.strobeAddress s)).pollSettle

/-- Whether a strobe has been made and not yet taken (R166). -/
def State.strobeDue (s : State) : Bool := decide (Config.ticksPerSecond ≤ s.timing.seconds)

/-- The seconds count returns to 0 and the strobe is taken (R12, R166). -/
def State.secondsEvent (s : State) : State :=
  if s.strobeDue then State.takeStrobe { s with timing := { s.timing with seconds := 0 } } else s

/-! ### The interval timers (8.3) -/

/-- The pace timer's expiry: reload, and in PACED a round or PACE_OVERRUN (R109, R169). -/
def State.paceEvent (s : State) : State :=
  if s.timing.pace = 0 then
    let t := { s with timing := { s.timing with pace := s.params.pollPeriod } }
    if t.poll.mode = .paced then
      match t.poll.state with
      | .wait => t.beginRound
      | .round => t.raise .paceOverrun
      | .off => t
    else t
  else s

/-- The solicit timer's expiry: reload, and in LISTED or OPEN solicit due is set (R75, R169). -/
def State.solicitEvent (s : State) : State :=
  if s.timing.solicit = 0 then
    let t := { s with timing := { s.timing with solicit := s.params.solicitPeriod } }
    if t.enrol.mode = .closed then t else { t with enrol := { t.enrol with solicitDue := true } }
  else s

/-- The census-step timer's expiry at the census: a step in STEPPED with STEP_SOURCE 0, and the next pass of a CONTINUOUS sweep
that waits (R132, R133). -/
def State.timerStep (s : State) : State :=
  match s.census.mode with
  | .stepped => if s.params.stepSource = 0 then s.takeStep else s
  | .continuous => if s.census.state = .waitStep then s.censusWalk else s
  | .onceR => s
  | .once => s

/-- The census-step timer's expiry: reload, and its effect at the census (R133, R169). -/
def State.censusStepEvent (s : State) : State :=
  if s.timing.censusStep = 0 then
    State.timerStep { s with timing := { s.timing with censusStep := s.params.censusStepMs } }
  else s

/-! ### The tick (8.1) -/

/-- Whether a tick brings the fault-grace timer to 0 (R68). -/
def Grace.runsOut : Grace → Bool
  | .running n => decide (n ≤ 1)
  | _ => false

/-- The fault-grace timer at a tick: one less, and SPENT as it reaches 0 (R68). -/
def Grace.tick : Grace → Grace
  | .running n => if n ≤ 1 then .spent else .running (n - 1)
  | g => g

/-- A tick at the seconds count, the three interval timers and the fault-grace timer (R165, R166, R168, R169). -/
def State.countTick (s : State) : State :=
  { s with
    timing := { s.timing with
      prescaler := 0
      seconds := s.timing.seconds + 1
      pace := s.timing.pace - 1
      solicit := s.timing.solicit - 1
      censusStep := s.timing.censusStep - 1 }
    engine := { s.engine with
      grace := s.engine.grace.tick
      dropDue := s.engine.dropDue || (s.pins.fault && s.engine.grace.runsOut) } }

/-- The events of a tick that stand untaken: the strobe, the three expiries and the fault drop. The next tick comes thousands
of REFCLK periods later, so it finds them taken: in this order where no command has set another (log entry 5). -/
def State.takeDue (s : State) : State :=
  s.secondsEvent.paceEvent.solicitEvent.censusStepEvent.dropEvent

/-- The prescaler returns to 0 and one tick is made (R165). -/
def State.tickEvent (s : State) : State := s.takeDue.countTick

/-! ### Meanings -/

/-- CONFIGURE is taken (R173 to R176). -/
def execConfigure (s : State) : Host.Outcome State Fault Refusal := takeRequest .configure configureRequest s
/-- READ_CONFIG is taken (R179). -/
def execReadConfig (s : State) : Host.Outcome State Fault Refusal := takeRequest .readConfig readConfigRequest s
/-- TICK (R165). -/
def execTick (s : State) : Host.Outcome State Fault Refusal := whenRunning State.tickEvent s
/-- FAULT_DROP: the fault drop of the timer that has become SPENT is taken (R68 to R70). -/
def execFaultDrop (s : State) : Host.Outcome State Fault Refusal := whenRunning State.dropEvent s
/-- SECONDS_STROBE (R12, R166). -/
def execSecondsStrobe (s : State) : Host.Outcome State Fault Refusal := whenRunning State.secondsEvent s
/-- PACE_EXPIRY (R109, R169). -/
def execPaceExpiry (s : State) : Host.Outcome State Fault Refusal := whenRunning State.paceEvent s
/-- SOLICIT_EXPIRY (R75, R169). -/
def execSolicitExpiry (s : State) : Host.Outcome State Fault Refusal := whenRunning State.solicitEvent s
/-- CENSUS_STEP_EXPIRY (R133, R169). -/
def execCensusStepExpiry (s : State) : Host.Outcome State Fault Refusal := whenRunning State.censusStepEvent s

end Sys2Proof.Machine
end

