-- ==== Sys2Proof/Machine/Dispatch.lean ====
section
/-! DEFINITION. The meaning of each command: one arm per row of spec/opcode_table.json, in the table's order. -/
namespace Sys2Proof.Machine

def exec (i : Instr) (s : State) : Host.Outcome State Fault Refusal :=
  match i with
  | .rstAssert => Sys2Proof.Machine.execRstAssert s
  | .rstRise => Sys2Proof.Machine.execRstRise s
  | .csFall => Sys2Proof.Machine.execCsFall s
  | .accessByte b => Sys2Proof.Machine.execAccessByte b s
  | .requestByte b => Sys2Proof.Machine.execRequestByte b s
  | .csRise => Sys2Proof.Machine.execCsRise s
  | .responseByteRead => Sys2Proof.Machine.execResponseByteRead s
  | .badFrame => Sys2Proof.Machine.execBadFrame s
  | .unknownRequest => Sys2Proof.Machine.execUnknownRequest s
  | .echo => Sys2Proof.Machine.execEcho s
  | .readEngine => Sys2Proof.Machine.execReadEngine s
  | .configure => Sys2Proof.Machine.execConfigure s
  | .readConfig => Sys2Proof.Machine.execReadConfig s
  | .enable => Sys2Proof.Machine.execEnable s
  | .disable => Sys2Proof.Machine.execDisable s
  | .resetTrunk => Sys2Proof.Machine.execResetTrunk s
  | .reset => Sys2Proof.Machine.execReset s
  | .causeControl => Sys2Proof.Machine.execCauseControl s
  | .readCauses => Sys2Proof.Machine.execReadCauses s
  | .readChanges => Sys2Proof.Machine.execReadChanges s
  | .readSlot => Sys2Proof.Machine.execReadSlot s
  | .lookupIdentity => Sys2Proof.Machine.execLookupIdentity s
  | .lookupAddress => Sys2Proof.Machine.execLookupAddress s
  | .setFields => Sys2Proof.Machine.execSetFields s
  | .pin => Sys2Proof.Machine.execPin s
  | .retireForced => Sys2Proof.Machine.execRetireForced s
  | .retireGraceful => Sys2Proof.Machine.execRetireGraceful s
  | .ringMove => Sys2Proof.Machine.execRingMove s
  | .setEnrolMode => Sys2Proof.Machine.execSetEnrolMode s
  | .admitAdd => Sys2Proof.Machine.execAdmitAdd s
  | .admitRemove => Sys2Proof.Machine.execAdmitRemove s
  | .admitClear => Sys2Proof.Machine.execAdmitClear s
  | .admitRead => Sys2Proof.Machine.execAdmitRead s
  | .pollControl => Sys2Proof.Machine.execPollControl s
  | .pollRound => Sys2Proof.Machine.execPollRound s
  | .censusStart => Sys2Proof.Machine.execCensusStart s
  | .censusStop => Sys2Proof.Machine.execCensusStop s
  | .censusStep => Sys2Proof.Machine.execCensusStep s
  | .censusStatus => Sys2Proof.Machine.execCensusStatus s
  | .relay => Sys2Proof.Machine.execRelay s
  | .relayCancel => Sys2Proof.Machine.execRelayCancel s
  | .tick => Sys2Proof.Machine.execTick s
  | .secondsStrobe => Sys2Proof.Machine.execSecondsStrobe s
  | .paceExpiry => Sys2Proof.Machine.execPaceExpiry s
  | .solicitExpiry => Sys2Proof.Machine.execSolicitExpiry s
  | .censusStepExpiry => Sys2Proof.Machine.execCensusStepExpiry s
  | .trunkFaultRising => Sys2Proof.Machine.execTrunkFaultRising s
  | .trunkFaultFalling => Sys2Proof.Machine.execTrunkFaultFalling s
  | .faultDrop => Sys2Proof.Machine.execFaultDrop s
  | .grant => Sys2Proof.Machine.execGrant s
  | .frameSent => Sys2Proof.Machine.execFrameSent s
  | .characterReceived data flag parity stop => Sys2Proof.Machine.execCharacterReceived data flag parity stop s
  | .replyIdleTimeout => Sys2Proof.Machine.execReplyIdleTimeout s
  | .replyWindowTimeout => Sys2Proof.Machine.execReplyWindowTimeout s
  | .solicitListenEnd => Sys2Proof.Machine.execSolicitListenEnd s
  | .guardEnd => Sys2Proof.Machine.execGuardEnd s
  | .startBit began middle => Sys2Proof.Machine.execStartBit began middle s
  | .responseByteBegin => Sys2Proof.Machine.execResponseByteBegin s

end Sys2Proof.Machine
end

