-- ==== Sys2Proof/Machine/Autonomy.lean ====
section
/-! DEFINITION. What the part does of itself while no command waits: the event that is due, or one REFCLK period (R165, R167).
The two time bases of chapter 08 are counted here in REFCLK periods (log entry 5). -/
namespace Sys2Proof.Machine

/-- The trunk event whose time has come by the count of REFCLK periods: the end of the frame (R32), of the reply window (R39),
of the idle after a character (R40), of the solicit listen (R45), of the guard (R44). A wait stands until every fall that came
in its time has been judged at the middle of its start bit (R33, R167); its end then counts from its own time, so the guard is
not the longer for it (log entry 32). -/
def State.trunkDue (s : State) : Option Instr :=
  let p := s.params
  let e := s.engine
  match e.state, e.txn with
  | .send, some t => if t.frame.length * p.charTime ≤ e.clock then some .frameSent else none
  | .listen, some t =>
    if t.kind = .solicit then (if p.listenTime + p.judgeTime ≤ e.clock then some .solicitListenEnd else none)
    else if p.windowTime + p.judgeTime < e.clock then some .replyWindowTimeout else none
  | .receive, some _ =>
    if e.reception.charBegan = none ∧ e.reception.idleFrom + p.charTime + p.judgeTime < e.clock then some .replyIdleTimeout
    else none
  | .guarding, _ => if e.guardFrom + p.guardTime * p.charTime ≤ e.clock then some .guardEnd else none
  | _, _ => none

/-- The event of a tick that stands untaken (R166, R168, R169). -/
def State.tickDue (s : State) : Option Instr :=
  if s.strobeDue then some .secondsStrobe
  else if s.timing.pace = 0 then some .paceExpiry
  else if s.timing.solicit = 0 then some .solicitExpiry
  else if s.timing.censusStep = 0 then some .censusStepExpiry
  else if s.engine.dropDue then some .faultDrop
  else none

/-- The take of the head of the Request FIFO, when its space suffices (R191). -/
def State.takeDueRow (s : State) : Option Instr :=
  match s.host.requests with
  | e :: _ => if s.fits e then some e.row else none
  | [] => none

/-- The grant, when the Engine is IDLE and some source has work (R57). -/
def State.grantDue (s : State) : Option Instr :=
  if s.engine.state = .idle ∧ s.hasWork = true then some .grant else none

/-- The row of the table that the part takes next of itself; where several are due no order is given by the spec, and the
model takes them in this one (log entry 5). -/
def State.ownEvent (s : State) : Option Instr :=
  match s.tickDue with
  | some c => some c
  | none =>
    match s.trunkDue with
    | some c => some c
    | none =>
      match s.takeDueRow with
      | some c => some c
      | none => s.grantDue

/-- Whether the Engine is in a state that lasts a counted time. -/
def EngineState.timed : EngineState → Bool
  | .send => true
  | .listen => true
  | .receive => true
  | .guarding => true
  | _ => false

/-- One REFCLK period: the trunk time of a timed engine state goes on (R167), and the prescaler counts and makes its tick at
REFCLK_KHZ (R165). -/
def State.refclkPeriod (s : State) : State :=
  let t := if s.engine.state.timed then { s with engine := { s.engine with clock := s.engine.clock + 1 } } else s
  if t.params.refclkKhz ≤ t.timing.prescaler + 1 then t.tickEvent
  else { t with timing := { t.timing with prescaler := t.timing.prescaler + 1 } }

/-- A step with no command waiting: nothing while RST# is low (R165, R202); otherwise the part's own event that is due, or one
REFCLK period. -/
def idleStep (s : State) : Host.Outcome State Fault Refusal :=
  if s.pins.rstLow then .next s
  else
    match s.ownEvent with
    | some c => exec c s
    | none => .next s.refclkPeriod

end Sys2Proof.Machine
end

