-- ==== Sys2Proof/Safety.lean ====
section
/-! DEFINITION. What a sound state of the part is: the relations between its blocks that the manual says hold after every
change, each as a property of one state. Every one can be decided. -/
namespace Sys2Proof.Machine

/-! ### Terms the statements use -/

/-- The head of the Request FIFO is this whole frame, the response space suffices for it, and RST# is high (R191). -/
def State.Takes (s : State) (bytes : List Byte) (rest : List ReqEntry) : Prop :=
  s.pins.rstLow = false ∧ s.host.requests = .frame bytes :: rest ∧ (ReqEntry.frame bytes).maxResponse ≤ s.space

/-- The state whose Request FIFO holds `rest`: its head has left. -/
def State.popped (rest : List ReqEntry) (s : State) : State :=
  { s with host := { s.host with requests := rest } }

/-- The state with one response frame appended and RESPONSE_READY, bit 1 of the flags, set (R189, R205). -/
def State.replied (frame : List Byte) (s : State) : State :=
  { s with
    host := { s.host with responses := s.host.responses ++ frame }
    causes := { s.causes with flags := s.causes.flags ||| 0x0002 } }

/-- The argument counts that Table 9-6 gives a request (R193). -/
def Request.takesCount (r : Request) (n : Nat) : Bool :=
  match r with
  | .echo => decide (n ≤ 21)
  | .relay => decide (3 ≤ n ∧ n ≤ 11)
  | .configure => n == 3
  | .readConfig => n == 2
  | .trunkControl => n == 1
  | .causeControl => n == 5
  | .readChanges => n == 1
  | .readSlot => n == 1
  | .lookupIdentity => n == 6
  | .lookupAddress => n == 1
  | .setFields => n == 5
  | .pin => n == 7
  | .retire => n == 2
  | .ringMove => n == 2
  | .setEnrolMode => n == 1
  | .admitAdd => n == 6
  | .admitRemove => n == 6
  | .admitRead => n == 1
  | .pollControl => n == 1
  | .censusStart => n == 3
  | .relayCancel => n == 1
  | .readEngine | .reset | .readCauses | .admitClear | .pollRound | .censusStop | .censusStep | .censusStatus => n == 0

/-- The state that a grant leaves at the Engine: SEND, the transaction in flight, and the relay-burst count (R52, R57). -/
def State.sending (t : Txn) (burst : Nat) (s : State) : State :=
  { s with engine := { s.engine with
      state := .send, txn := some t, burst := burst, clock := 0, guardFrom := 0, reception := Reception.reset } }

/-- The Engine in another state, its count of REFCLK periods and its reception begun afresh. -/
def State.inState (st : EngineState) (s : State) : State :=
  { s with engine := { s.engine with state := st, clock := 0, guardFrom := 0, reception := Reception.reset } }

/-- The Engine in the guard of an attempt that ended at time `ended` of its frame or wait, and `ended` passed (R44). -/
def State.inGuard (ended : Nat) (s : State) : State :=
  { s with engine := { s.engine with state := .guarding, guardFrom := ended, reception := Reception.reset } }

/-- The count of REFCLK periods of the present frame, wait or guard brought to `t`, unless it is beyond. -/
def State.atTime (t : Nat) (s : State) : State :=
  { s with engine := { s.engine with clock := max s.engine.clock t } }

/-- The cadence_count of a slot's lease, 0 when the slot is FREE. -/
def State.countOf (s : State) (n : Slot) : Nat := ((s.lease n).map (fun l => l.cadenceCount)).getD 0

/-! ### Sound states -/

/-- The slot that holds an address entry. -/
def AddrEntry.holder : AddrEntry → Option Slot
  | .held n => some n
  | _ => none

/-- Whether a lease is OFFERED. -/
def isOffered : Option Lease → Bool
  | some l => match l.status with | .offered _ => true | _ => false
  | none => false

/-- The slots of the Poll Ring from head to tail. -/
def Scheduler.slots (p : Scheduler) : List Slot := p.ring.map (fun m => m.slot)

/-- The slots of the Offer List from head to tail. -/
def Enrolment.slots (e : Enrolment) : List Slot := e.offers.map (fun o => o.slot)

/-- An address is HELD by a slot if and only if that slot's lease carries the address (R8). -/
def State.MapMatches (s : State) : Prop :=
  (∀ n : Slot, ∀ l ∈ s.lease n, s.entry l.address = .held n) ∧
  (∀ a : Address, ∀ n ∈ (s.entry a).holder, (s.lease n).map (fun l => l.address) = some a)

/-- The Poll Ring holds each slot whose lease is BOUND or SUSPECT exactly once, and no other slot (R99). -/
def State.RingMatches (s : State) : Prop :=
  s.poll.slots.Nodup ∧ ∀ n : Slot, n ∈ s.poll.slots ↔ isBound (s.lease n) = true

/-- The Offer List holds each OFFERED slot exactly once and no other, is empty while a SOLICIT is in flight, and never holds
more than four entries (R77, R90). -/
def State.OffersMatch (s : State) : Prop :=
  s.enrol.slots.Nodup ∧ (∀ n : Slot, n ∈ s.enrol.slots ↔ isOffered (s.lease n) = true) ∧
  (s.inListen = true → s.enrol.offers = []) ∧ s.enrol.offers.length ≤ 4

/-- A frame in assembly has its first byte, is not yet whole and is 3 to 24 bytes long (R183). -/
def Assembly.sound : Assembly → Bool
  | .inFrame n got => decide (1 ≤ got.length ∧ got.length < n ∧ 3 ≤ n ∧ n ≤ 24)
  | _ => true

/-- An access whose assembly state is sound. -/
def Access.sound : Access → Bool
  | .write a => a.sound
  | _ => true

/-- A whole frame is 3 to 24 bytes long (R183). -/
def ReqEntry.sound : ReqEntry → Bool
  | .frame bytes => decide (3 ≤ bytes.length ∧ bytes.length ≤ 24)
  | .marker _ => true

/-- The Request FIFO holds whole frames and markers, with the space claimed never more than 256 bytes (R183, R184). -/
def State.RequestsFit (s : State) : Prop :=
  s.host.access.sound = true ∧ (∀ e ∈ s.host.requests, e.sound = true) ∧
  requestBytes s.host.requests + s.host.access.claimed ≤ 256

/-- A transaction is in flight in SEND, LISTEN and RECEIVE, may be in GUARD with an attempt left, and is in no other state;
its attempt number stays within its maximum (R50, R52, R54). -/
def State.EngineSound (s : State) : Prop :=
  (s.engine.txn.isSome = true →
    s.engine.state = .send ∨ s.engine.state = .listen ∨ s.engine.state = .receive ∨ s.engine.state = .guarding) ∧
  (s.engine.state = .send ∨ s.engine.state = .listen ∨ s.engine.state = .receive → s.engine.txn.isSome = true) ∧
  (∀ t ∈ s.engine.txn, 1 ≤ t.attempt ∧ t.attempt ≤ t.maxAttempts ∧
    (s.engine.state = .guarding → t.attempt < t.maxAttempts))

/-- Every parameter lies in its range of Table 8-4 (R172, R173). -/
def State.ParamsInRange (s : State) : Prop :=
  ∀ q ∈ Param.all, s.params.admits (s.params.get q) q = true

/-- The prescaler, the seconds count and the interval timers stay within their ranges; a seconds count of 1000 and a timer at
0 stand only until the event is taken (R165, R166, R169). -/
def State.TimersInRange (s : State) : Prop :=
  s.timing.prescaler < s.params.refclkKhz ∧ s.timing.seconds ≤ 1000 ∧ s.timing.pace ≤ 60000 ∧
  s.timing.solicit ≤ 60000 ∧ s.timing.censusStep ≤ 60000

/-- The Admission List, the Release Queue and the Relay Queue keep within their sizes; no identity and no address stands
twice (R86, R147, R155). -/
def State.QueuesFit (s : State) : Prop :=
  s.enrol.admission.length ≤ 32 ∧ s.enrol.admission.Nodup ∧
  s.releases.length ≤ 16 ∧ (s.releases.map (fun e => e.address)).Nodup ∧ s.relays.length ≤ 8

/-- A pending poll stands exactly while a round runs, and the scheduler is OFF exactly in poll mode OFF (R102, R105). -/
def State.SchedulerSound (s : State) : Prop :=
  (s.poll.state = .round ↔ s.poll.pending.isSome = true) ∧ (s.poll.mode = .off ↔ s.poll.state = .off)

/-- A probe of the current sweep stands exactly in RUNNING, and a step waits only there and only in STEPPED (R127, R133). -/
def State.CensusSound (s : State) : Prop :=
  (s.census.state = .running ↔ s.census.pending.isSome = true) ∧
  (s.census.stepPending = true → s.census.state = .running ∧ s.census.mode = .stepped)

/-- Whether an entry of the Release Queue is the lease entry of a slot that is RELEASING at its address (R147). -/
def State.entrySound (s : State) (e : Release) : Bool :=
  match e.reason with
  | .retire n _ =>
    match s.lease n with
    | some l => (match l.status with | .releasing _ => true | _ => false) && decide (l.address = e.address)
    | none => false
  | _ => true

/-- Whether a release entry is a lease entry. -/
def Release.isLease (e : Release) : Bool := match e.reason with | .retire _ _ => true | _ => false

/-- Whether a lease is RELEASING. -/
def isReleasing : Option Lease → Bool
  | some l => match l.status with | .releasing _ => true | _ => false
  | none => false

/-- Every lease entry belongs to a lease in RELEASING at its address, and every lease in RELEASING has one (R147). -/
def State.ReleasesMatch (s : State) : Prop :=
  (∀ e ∈ s.releases, s.entrySound e = true) ∧
  ∀ n : Slot, isReleasing (s.lease n) = true →
    s.releases.any (fun e => match e.reason with | .retire m _ => m == n | _ => false) = true

/-- A RELEASE in flight is the Release Queue head's: the head is marked, its address is the captured one, and of a lease entry
the slot, tag and identity are those captured (R52, R147, R151). -/
def State.releaseInFlight (s : State) : Bool :=
  match s.engine.txn with
  | some t =>
    t.kind != .release ||
      match s.releases with
      | e :: _ =>
        e.inFlight && decide (t.address = .station e.address) &&
          match e.reason with
          | .retire n tag =>
            decide (t.slot = some n ∧ t.tag = some tag ∧ t.identity = (s.lease n).map (fun l => l.identity))
          | _ => true
      | [] => false
  | none => true

/-- While TRUNK_FAULT is high the Engine is OFF or HELD, and a fault drop is due only then; while RST# is low the Engine is OFF
and no drop is due (R66, R68, R69, R202). -/
def State.FaultSound (s : State) : Prop :=
  (s.pins.fault = true → s.engine.state = .off ∨ s.engine.state = .held) ∧
  (s.engine.dropDue = true → s.pins.fault = true) ∧
  (s.pins.rstLow = true → s.engine.state = .off ∧ s.engine.dropDue = false)

/-- The bytes that the deferred requests now standing keep reserved: 18 for each relay, 11 for each graceful RETIRE, 5 for a
pending DISABLE (R192, Table 9-6). -/
def State.deferredBytes (s : State) : Nat :=
  18 * s.relays.length + 11 * s.releases.countP Release.isLease + (if s.engine.pendingDisable.isSome then 5 else 0)

/-- The reply that a transaction keeps is at most eight bytes (R34, R37). -/
def State.replyFits (s : State) : Bool :=
  match s.engine.txn with
  | some t => decide ((t.reply.getD []).length ≤ 8)
  | none => true

/-- The bytes reserved are those of the deferred requests, and with the bytes held they never exceed 512 (R192). -/
def State.ResponsesFit (s : State) : Prop :=
  s.host.reserved = s.deferredBytes ∧ s.host.responses.length + s.host.reserved ≤ 512 ∧ s.replyFits = true

/-- No two leases hold the same identity (R4). -/
def State.IdentitiesUnique (s : State) : Prop :=
  ∀ n : Slot, ∀ m : Slot, ∀ l ∈ s.lease n, ∀ k ∈ s.lease m, l.identity = k.identity → n = m

/-- The counts that a lease state carries, in their ranges (R1, R14, R117). -/
def LeaseStatus.inRange (p : Params) : LeaseStatus → Bool
  | .bound term miss => decide (1 ≤ term ∧ term ≤ 1020 ∧ miss < p.suspectAfter)
  | .suspect term miss => decide (1 ≤ term ∧ term ≤ 1020 ∧ miss < p.lostAfter)
  | .lost q => decide (q ≤ 1275)
  | .releasing term => decide (1 ≤ term ∧ term ≤ 1020)
  | .reserved => true
  | .offered _ => true

/-- The fields of a lease in their ranges (R1, R117, R121). -/
def Lease.inRange (p : Params) (l : Lease) : Bool :=
  l.status.inRange p &&
  decide (1 ≤ l.cadence ∧ l.cadence ≤ 8 ∧ 1 ≤ l.cadenceCount ∧ l.cadenceCount ≤ l.cadence ∧
    l.windowAttempts < p.windowSize ∧ l.windowBad ≤ l.windowAttempts ∧ l.lastWindowBad.getD 0 ≤ 256)

/-- Every lease's fields and every quarantine are in their ranges (R1, R8). -/
def State.LeasesInRange (s : State) : Prop :=
  (∀ n : Slot, ∀ l ∈ s.lease n, l.inRange s.params = true) ∧
  ∀ a : Address, (s.entry a = .quarantined 0 → False) ∧ (s.entry a).seconds ≤ 1275

/-- All of them together. -/
structure State.Sound (s : State) : Prop where
  map       : s.MapMatches
  unique    : s.IdentitiesUnique
  leases    : s.LeasesInRange
  ring      : s.RingMatches
  offers    : s.OffersMatch
  requests  : s.RequestsFit
  engine    : s.EngineSound
  params    : s.ParamsInRange
  timers    : s.TimersInRange
  queues    : s.QueuesFit
  scheduler : s.SchedulerSound
  census    : s.CensusSound
  releases  : s.ReleasesMatch
  inFlight  : s.releaseInFlight = true
  fault     : s.FaultSound
  responses : s.ResponsesFit

end Sys2Proof.Machine
end

