-- ==== Sys2Proof/Certificates/Slice0/Obligations.lean ====
section
/-! DEFINITION. The statements for the provers. An equation `exec c s = .next t` says at once that the command completes, what
it changes, and, by the fields that `t` shares with `s`, all that it leaves alone. -/

section Statements
open Sys2Proof Sys2Proof.Machine

/-! ### The queue of commands, and reset -/

/-- A step takes the command at the front of the queue and runs its meaning on the state with the queue's rest. -/
def Obligations.StepTakesTheFrontCommand : Prop :=
  ∀ (c : Instr) (s : State) (rest : List Instr),
    step { s with pending := c :: rest } = exec c { s with pending := rest }

/-- The model's choice (log entry 5): with no command waiting, a step is the part's own event that is due, or one REFCLK
period, counted by the prescaler (R165) and by the trunk's clock in the Engine's timed states (R167). The event due is, in this
order, also the model's choice (log entry 5), an event of a tick that stands untaken, the trunk event, the take of a head whose
space suffices, the grant in IDLE when a source has work. The trunk event due is the end of the frame, of the reply window, of
one character time of idle, of the listen of 56 character times, of the guard of GUARD character times; a wait stands until a
fall in its time has been judged, n + 1 periods later (the model's choice, log entry 32). -/
def Obligations.EmptyQueueStepTakesADueEventOrCountsAPeriod : Prop :=
  ∀ s : State, s.pending = [] →
    (s.pins.rstLow = true → step s = .next s) ∧
    (s.pins.rstLow = false → ∀ c, s.ownEvent = some c → step s = exec c s) ∧
    (s.pins.rstLow = false → s.ownEvent = none →
      let t := { s with engine := { s.engine with
                   clock := if s.engine.state.timed then s.engine.clock + 1 else s.engine.clock } }
      (s.timing.prescaler + 1 < s.params.refclkKhz →
        step s = .next { t with timing := { s.timing with prescaler := s.timing.prescaler + 1 } }) ∧
      (s.params.refclkKhz ≤ s.timing.prescaler + 1 → step s = exec .tick t)) ∧
    (let tick : Option Instr :=
       if 1000 ≤ s.timing.seconds then some .secondsStrobe
       else if s.timing.pace = 0 then some .paceExpiry
       else if s.timing.solicit = 0 then some .solicitExpiry
       else if s.timing.censusStep = 0 then some .censusStepExpiry
       else if s.engine.dropDue then some .faultDrop
       else none
     let fits (e : ReqEntry) : Prop := e.maxResponse ≤ s.space ∨ ∃ k tag, e = .frame [k, 0x06, tag]
     let work : Prop := s.enrol.offers ≠ [] ∨ s.releases ≠ [] ∨ s.relays ≠ [] ∨
       (∃ a, s.census.pending = some ⟨a, false⟩) ∨ (∃ n, s.poll.pending = some ⟨n, false⟩) ∨ s.enrol.solicitDue = true
     (∀ c, tick = some c → s.ownEvent = some c) ∧
     (tick = none →
       (∀ c, s.trunkDue = some c → s.ownEvent = some c) ∧
       (s.trunkDue = none →
         (∀ e rest, s.host.requests = e :: rest → fits e → s.ownEvent = some e.row) ∧
         ((∀ e rest, s.host.requests = e :: rest → ¬fits e) →
           (s.engine.state = .idle → work → s.ownEvent = some .grant) ∧
           (s.engine.state ≠ .idle ∨ ¬work → s.ownEvent = none))))) ∧
    (let e := s.engine
     let bit := 2 * s.params.bitDivider + 2 + s.params.oddStep
     let character := 12 * bit
     let judged := s.params.bitDivider + 1
     (∀ t, e.state = .send → e.txn = some t →
       s.trunkDue = if t.frame.length * character ≤ e.clock then some .frameSent else none) ∧
     (∀ t, e.state = .listen → e.txn = some t → t.kind ≠ .solicit →
       s.trunkDue = if s.params.replyWait * character + judged < e.clock then some .replyWindowTimeout else none) ∧
     (∀ t, e.state = .listen → e.txn = some t → t.kind = .solicit →
       s.trunkDue = if 56 * character + judged ≤ e.clock then some .solicitListenEnd else none) ∧
     (∀ t, e.state = .receive → e.txn = some t →
       s.trunkDue = if e.reception.charBegan = none ∧ e.reception.idleFrom + character + judged < e.clock
         then some .replyIdleTimeout else none) ∧
     (e.state = .guarding →
       s.trunkDue = if e.guardFrom + s.params.guardTime * character ≤ e.clock then some .guardEnd else none) ∧
     (e.state = .off ∨ e.state = .idle ∨ e.state = .held → s.trunkDue = none))

/-- What the part holds right after reset, block by block. The pin levels are the model's choice (log entry 6). -/
def Obligations.ResetStateHoldsTheResetValues : Prop :=
  (∀ n : Slot, State.reset.lease n = none) ∧ (∀ a : Address, State.reset.entry a = .free) ∧
  State.reset.enrol = { mode := .closed, solicitDue := false, admission := [], offers := [], solicitNumber := 0 } ∧
  State.reset.poll = { ring := [], mode := .off, state := .off, pending := none, detached := none, rounds := 0 } ∧
  State.reset.census.state = .idle ∧ State.reset.census.mode = .once ∧
  addressNumber State.reset.census.first = 1 ∧ addressNumber State.reset.census.last = 126 ∧
  addressNumber State.reset.census.cursor = 1 ∧ State.reset.census.stepPending = false ∧
  State.reset.census.probeNamed = false ∧ State.reset.census.passes = 0 ∧ State.reset.census.adopted = 0 ∧
  State.reset.census.pending = none ∧ State.reset.census.detached = none ∧
  State.reset.releases = [] ∧ State.reset.relays = [] ∧
  State.reset.engine.state = .off ∧ State.reset.engine.txn = none ∧ State.reset.engine.burst = 0 ∧
  State.reset.engine.collisions = 0 ∧ State.reset.engine.pendingDisable = none ∧
  State.reset.engine.grace = .stopped ∧ State.reset.engine.dropDue = false ∧
  State.reset.engine.reception.chars = [] ∧
  State.reset.engine.reception.charBegan = none ∧
  State.reset.timing.prescaler = 0 ∧ State.reset.timing.seconds = 0 ∧ State.reset.timing.pace = 2000 ∧
  State.reset.timing.solicit = 2000 ∧ State.reset.timing.censusStep = 100 ∧
  Param.all.map State.reset.params.get =
    [16000, 832, 1, 3, 2, 1, 2, 1, 1, 2, 6, 30, 10, 1, 2000, 2000, 100, 0, 16, 0, 200, 4] ∧
  State.reset.host = { access := .ready, requests := [], responses := [], reserved := 0 } ∧
  State.reset.causes.flags = 0x0001 ∧ State.reset.causes.enables = 0 ∧ State.reset.changeSet = [] ∧
  State.reset.hintLow = false ∧ State.reset.txen = false ∧ State.reset.txd = true ∧
  State.reset.misoDriven = false ∧ State.reset.pending = []

/-- The reset state has every relation between its blocks that the manual says always holds. -/
def Obligations.ResetStateIsSound : Prop := State.reset.Sound

/-- RST# falling holds every block at its reset value; RST# rising starts the part from those values, in READY or IGNORE by
the level of CS#, with RESTARTED set and a high TRUNK_FAULT taken as a rising. -/
def Obligations.ResetPinHoldsAndStartsThePart : Prop :=
  (∀ s : State, s.pins.rstLow = false →
    exec .rstAssert s = .next { State.reset with
      pins := { s.pins with rstLow := true }
      causes := { State.reset.causes with flags := 0 }
      pending := s.pending }) ∧
  (∀ s : State, s.pins.rstLow = true →
    exec .rstRise s = .next { State.reset with
      pins := { s.pins with rstLow := false }
      host := { State.reset.host with access := if s.pins.csLow then .ignore else .ready }
      causes := { State.reset.causes with flags := if s.pins.fault then 0x1001 else 0x0001 }
      engine := { State.reset.engine with grace := if s.pins.fault then .running 200 else .stopped }
      pending := s.pending })

/-- While RST# is low no command but its rise has an effect: at most the level of another pin changes. -/
def Obligations.NothingMovesWhileRstIsLow : Prop :=
  ∀ (c : Instr) (s : State), s.pins.rstLow = true → c ≠ .rstRise →
    ∃ p : Pins, p.rstLow = true ∧ exec c s = .next { s with pins := p }

/-! ### The Host Port -/

/-- CS# falling opens an access, the access byte gives its kind, and CS# rising ends it; a frame in assembly is then
discarded with REQ_OVERRUN, bit 14. -/
def Obligations.AccessesBeginAndEnd : Prop :=
  ∀ s : State, s.pins.rstLow = false →
    (s.pins.csLow = false → s.host.access = .ready →
      exec .csFall s = .next { s with
        pins := { s.pins with csLow := true }, host := { s.host with access := .select } }) ∧
    (s.pins.csLow = true → (∀ n got, s.host.access ≠ .write (.inFrame n got)) →
      exec .csRise s = .next { s with
        pins := { s.pins with csLow := false }, host := { s.host with access := .ready } }) ∧
    (s.pins.csLow = true → ∀ n got, s.host.access = .write (.inFrame n got) →
      exec .csRise s = .next { s with
        pins := { s.pins with csLow := false }, host := { s.host with access := .ready }
        causes := { s.causes with flags := s.causes.flags ||| 0x4000 } }) ∧
    (s.host.access = .select → ∀ b : Byte,
      exec (.accessByte b) s = .next { s with host := { s.host with access := (
        if b = 0x01 then .write .expectLength
        else if b = 0x02 then .readResponse none false
        else if b = 0x03 then
          .readStatus (natBytes (256 - requestBytes s.host.requests) ++ natBytes s.host.responses.length ++
            halfBytes s.causes.flags)
        else .ignore) } })

/-- The table of R183: a WRITE access begins in EXPECT_LENGTH, and what each of its bytes does in each assembly state.
REQ_OVERRUN is bit 14. -/
def Obligations.RequestBytesAreAssembled : Prop :=
  ∀ (s : State) (b : Byte), s.pins.rstLow = false →
    let free := 256 - requestBytes s.host.requests
    (s.host.access = .select →
      exec (.accessByte 0x01) s = .next { s with host := { s.host with access := .write .expectLength } }) ∧
    (s.host.access = .write .expectLength →
      (3 ≤ b.toNat → b.toNat ≤ 24 → b.toNat ≤ free →
        exec (.requestByte b) s = .next { s with host := { s.host with access := .write (.inFrame b.toNat [b]) } }) ∧
      (3 ≤ b.toNat → b.toNat ≤ 24 → free < b.toNat →
        exec (.requestByte b) s = .next { s with
          host := { s.host with access := .write (.skip (b.toNat - 1)) }
          causes := { s.causes with flags := s.causes.flags ||| 0x4000 } }) ∧
      (b.toNat < 3 ∨ 24 < b.toNat → 1 ≤ free →
        exec (.requestByte b) s = .next { s with
          host := { s.host with access := .write .discard, requests := s.host.requests ++ [.marker b] } }) ∧
      (b.toNat < 3 ∨ 24 < b.toNat → free = 0 →
        exec (.requestByte b) s = .next { s with
          host := { s.host with access := .write .discard }
          causes := { s.causes with flags := s.causes.flags ||| 0x4000 } })) ∧
    (∀ n got, s.host.access = .write (.inFrame n got) →
      (got.length + 1 < n →
        exec (.requestByte b) s =
          .next { s with host := { s.host with access := .write (.inFrame n (got ++ [b])) } }) ∧
      (got.length + 1 = n →
        exec (.requestByte b) s = .next { s with
          host := { s.host with
            access := .write .expectLength, requests := s.host.requests ++ [.frame (got ++ [b])] } })) ∧
    (s.host.access = .write (.skip 1) →
      exec (.requestByte b) s = .next { s with host := { s.host with access := .write .expectLength } }) ∧
    (∀ m, 1 < m → s.host.access = .write (.skip m) →
      exec (.requestByte b) s = .next { s with host := { s.host with access := .write (.skip (m - 1)) } }) ∧
    (s.host.access = .write .discard → exec (.requestByte b) s = .next s)

/-- R187: the byte to send is chosen as it begins, the head of the Response FIFO or filler, and a head byte leaves the FIFO
when its eighth bit has been sampled. `spent` marks an access that a RESET cut (R203). A READ_STATUS access sends its record and
then filler, a byte at each RESPONSE_BYTE_READ (the model's choice, log entry 20), and a byte travels most significant bit
first. MISO is driven exactly while CS# is low and RST# is high. -/
def Obligations.ResponseBytesLeaveFromTheHead : Prop :=
  (∀ s : State, s.misoDriven = true ↔ s.pins.csLow = true ∧ s.pins.rstLow = false) ∧
  ∀ s : State, s.pins.rstLow = false →
    (s.host.access = .readResponse none false → ∀ b rest, s.host.responses = b :: rest →
      exec .responseByteBegin s =
        .next { s with host := { s.host with access := .readResponse (some (.head b)) false } }) ∧
    (s.host.access = .readResponse none false → s.host.responses = [] →
      exec .responseByteBegin s =
        .next { s with host := { s.host with access := .readResponse (some .filler) false } }) ∧
    (s.host.access = .readResponse none true →
      exec .responseByteBegin s =
        .next { s with host := { s.host with access := .readResponse (some .filler) true } }) ∧
    (∀ b spent, s.host.access = .readResponse (some (.head b)) spent →
      s.misoByte = b ∧
      exec .responseByteRead s = .next { s with
        host := { s.host with access := .readResponse none spent, responses := s.host.responses.drop 1 } }) ∧
    (∀ spent, s.host.access = .readResponse (some .filler) spent →
      s.misoByte = 0 ∧
      exec .responseByteRead s = .next { s with host := { s.host with access := .readResponse none spent } }) ∧
    (∀ record, s.host.access = .readStatus record →
      s.misoByte = record.headD 0 ∧
      exec .responseByteRead s = .next { s with host := { s.host with access := .readStatus (record.drop 1) } }) ∧
    (s.host.access = .select ∨ s.host.access = .ignore ∨ (∃ a, s.host.access = .write a) → s.misoByte = 0) ∧
    (∀ i, i < 8 → s.misoBits[i]? = some (s.misoByte.getLsbD (7 - i))) ∧
    (∀ b7 b6 b5 b4 b3 b2 b1 b0 : Bool, ∃ b : Byte, mosiByte [b7, b6, b5, b4, b3, b2, b1, b0] = some b ∧
      portBits b = [b7, b6, b5, b4, b3, b2, b1, b0]) ∧
    (∀ bits : List Bool, bits.length < 8 → mosiByte bits = none)

/-! ### The Dispatcher -/

/-- A head whose maximum response size is above the space available is not taken, but for a RESET with no arguments. Taken,
a marker is answered BAD_FRAME, a code that is not in the catalogue UNKNOWN_REQUEST, and another argument count than Table 9-6
gives BAD_ARG with no data and no other effect. The space available, the request codes and the maximum response sizes are those of
R191 and of Tables 9-3 and 9-6. That a row whose head lacks space leaves the state as it is, is the model's choice (log entry 4);
which row takes a TRUNK_CONTROL or RETIRE frame without a fitting action or mode is its reading (log entry 2). -/
def Obligations.DispatcherTakesAndRefuses : Prop :=
  ((∀ s : State, s.space = 512 - s.host.responses.length - s.host.reserved) ∧
  (∀ b : Byte, (ReqEntry.marker b).row = .badFrame ∧ (ReqEntry.marker b).maxResponse = 5) ∧
  (∀ (r : Request) (k tag : Byte) (args : List Byte),
    (ReqEntry.frame (k :: r.code :: tag :: args)).row = r.row args ∧
    (ReqEntry.frame (k :: r.code :: tag :: args)).maxResponse =
      match r with
      | .echo => args.length + 4
      | .readConfig => 38
      | .readSlot => 36
      | .readChanges => 30
      | .lookupAddress => 22
      | .relay => 18
      | .readEngine | .censusStatus => 15
      | .lookupIdentity => 14
      | .retire | .admitRead => 11
      | .setFields => 10
      | .configure | .pollControl => 9
      | .causeControl | .readCauses | .setEnrolMode | .pollRound => 8
      | .censusStart | .censusStep => 7
      | .ringMove | .admitAdd | .admitRemove => 6
      | .trunkControl | .pin | .admitClear | .censusStop | .relayCancel => 5
      | .reset => 4) ∧
  (∀ (k code tag : Byte) (args : List Byte), (∀ r : Request, r.code ≠ code) →
    (ReqEntry.frame (k :: code :: tag :: args)).row = .unknownRequest ∧
    (ReqEntry.frame (k :: code :: tag :: args)).maxResponse = 4) ∧
  Request.all.map Request.code =
    [0x01, 0x02, 0x03, 0x04, 0x05, 0x06, 0x08, 0x09, 0x0A, 0x10, 0x11, 0x12, 0x13, 0x14, 0x15, 0x16, 0x18, 0x19,
      0x1A, 0x1B, 0x1C, 0x20, 0x21, 0x24, 0x25, 0x26, 0x27, 0x28, 0x29] ∧
  (∀ (a : Byte) (args : List Byte),
    Request.row .trunkControl [a] = (if a = 2 then .disable else if a = 3 then .resetTrunk else .enable) ∧
    (args.length ≠ 1 → Request.row .trunkControl args = .enable) ∧
    (∀ n : Byte, Request.row .retire [n, a] = if a = 0 then .retireGraceful else .retireForced) ∧
    (args.length ≠ 2 → Request.row .retire args = .retireForced) ∧
    (Request.all.filter (fun r => r ≠ .trunkControl ∧ r ≠ .retire)).map (fun r => r.row args) =
      [.echo, .readEngine, .configure, .readConfig, .reset, .causeControl, .readCauses, .readChanges, .readSlot,
        .lookupIdentity, .lookupAddress, .setFields, .pin, .ringMove, .setEnrolMode, .admitAdd, .admitRemove, .admitClear,
        .admitRead, .pollControl, .pollRound, .censusStart, .censusStop, .censusStep, .censusStatus, .relay, .relayCancel])) ∧
  ((∀ (s : State) (b : Byte) (rest : List ReqEntry), s.pins.rstLow = false → s.host.requests = .marker b :: rest →
    5 ≤ s.space → exec .badFrame s = .next ((s.popped rest).replied [5, 0x00, 0x00, 0x0E, b])) ∧
  (∀ (s : State) (k code tag : Byte) (args : List Byte) (rest : List ReqEntry),
    s.Takes (k :: code :: tag :: args) rest →
    code ∉ ([0x01, 0x02, 0x03, 0x04, 0x05, 0x06, 0x08, 0x09, 0x0A, 0x10, 0x11, 0x12, 0x13, 0x14, 0x15, 0x16, 0x18, 0x19,
      0x1A, 0x1B, 0x1C, 0x20, 0x21, 0x24, 0x25, 0x26, 0x27, 0x28, 0x29] : List Byte) →
    exec .unknownRequest s = .next ((s.popped rest).replied [4, code, tag, 0x0F]))) ∧
  (∀ (r : Request) (s : State) (k tag : Byte) (args : List Byte) (rest : List ReqEntry),
    s.Takes (k :: r.code :: tag :: args) rest → r.takesCount args.length = false →
    exec (r.row args) s = .next ((s.popped rest).replied [4, r.code, tag, 0x04])) ∧
  (∀ (s : State) (e : ReqEntry) (rest : List ReqEntry), s.pins.rstLow = false → s.host.requests = e :: rest →
    s.space < e.maxResponse → (∀ k tag, e ≠ .frame [k, 0x06, tag]) → exec e.row s = .next s)

/-- ECHO returns its argument bytes in order and changes nothing else. -/
def Obligations.EchoReturnsItsBytes : Prop :=
  ∀ (s : State) (k tag : Byte) (args : List Byte) (rest : List ReqEntry),
    s.Takes (k :: 0x01 :: tag :: args) rest → args.length ≤ 21 →
    exec .echo s = .next ((s.popped rest).replied (byteOf (args.length + 4) :: 0x01 :: tag :: 0x00 :: args))

/-- A RESET request is taken whatever the response space; every block is then at its reset value, and the Response FIFO holds
the RESET response alone. The byte of a read in progress turning to filler is the model's reading (log entry 10). -/
def Obligations.ResetRequestResetsEveryBlock : Prop :=
  ∀ (s : State) (k tag : Byte) (rest : List ReqEntry), s.pins.rstLow = false →
    s.host.requests = .frame [k, 0x06, tag] :: rest →
    exec .reset s = .next { State.reset with
      pins := s.pins
      host := {
        access :=
          match s.host.access with
          | .write _ => .write .discard
          | .readResponse out _ => .readResponse (out.map (fun _ => .filler)) true
          | a => a
        requests := [], responses := [4, 0x06, tag, 0x00], reserved := 0 }
      causes := { State.reset.causes with flags := if s.pins.fault then 0x1003 else 0x0003 }
      engine := { State.reset.engine with grace := if s.pins.fault then .running 200 else .stopped }
      pending := s.pending }

/-! ### The Cause Unit and the requests that read -/

/-- CAUSE_CONTROL gives each selected cause its enable bit and, with the clear flag, clears its flag; the response carries both
words as they then stand, and its own append sets RESPONSE_READY unless the request selected and cleared that flag. HINT# is
low, after it and in every state with RST# high, exactly when a cause is set and enabled. -/
def Obligations.CauseControlSetsEnablesAndClearsFlags : Prop :=
  (∀ s : State, s.hintLow = true ↔
    s.pins.rstLow = false ∧ ∃ i, i < 16 ∧ s.causes.flags.getLsbD i = true ∧ s.causes.enables.getLsbD i = true) ∧
  ∀ (s : State) (k tag s0 s1 e0 e1 c : Byte) (rest : List ReqEntry),
    s.Takes [k, 0x08, tag, s0, s1, e0, e1, c] rest →
    (1 < c.toNat → exec .causeControl s = .next ((s.popped rest).replied [4, 0x08, tag, 0x04])) ∧
    (c.toNat ≤ 1 → ∃ t : State, exec .causeControl s = .next t ∧
      t = { s.popped rest with host := t.host, causes := t.causes } ∧
      t.host = { s.host with requests := rest, responses := t.host.responses } ∧ t.causes.changes = s.causes.changes ∧
      ∃ flags : Half,
        (∀ i, i < 16 →
          t.causes.enables.getLsbD i =
            (if (s1 ++ s0).getLsbD i then (e1 ++ e0).getLsbD i else s.causes.enables.getLsbD i) ∧
          flags.getLsbD i = (s.causes.flags.getLsbD i && !(decide (c = 1) && (s1 ++ s0).getLsbD i))) ∧
        t.host.responses = s.host.responses ++ ([8, 0x08, tag, 0x00] ++ halfBytes flags ++ halfBytes t.causes.enables) ∧
        t.causes.flags = (if c = 1 ∧ (s1 ++ s0).getLsbD 1 = true then flags else flags ||| 0x0002) ∧
        (t.hintLow = true ↔ ∃ i, i < 16 ∧ t.causes.flags.getLsbD i = true ∧ t.causes.enables.getLsbD i = true))

/-- READ_CAUSES answers OK with the flags and the enables as they stand before its own response, whose append sets RESPONSE_READY;
READ_ENGINE answers OK with the nine items of R71 as they stand. Neither changes anything else. -/
def Obligations.ReadCausesAndReadEngineReport : Prop :=
  (∀ (s : State) (k tag : Byte) (rest : List ReqEntry), s.Takes [k, 0x09, tag] rest →
    exec .readCauses s =
      .next ((s.popped rest).replied ([8, 0x09, tag, 0x00] ++ halfBytes s.causes.flags ++ halfBytes s.causes.enables))) ∧
  (∀ (s : State) (k tag : Byte) (rest : List ReqEntry), s.Takes [k, 0x02, tag] rest →
    exec .readEngine s = .next ((s.popped rest).replied ([15, 0x02, tag, 0x00,
      (match s.engine.state with
       | .off => 0 | .idle => 1 | .send => 2 | .listen => 3 | .receive => 4 | .guarding => 5 | .held => 6),
      (match (s.engine.txn.map Txn.kind : Option TxnKind) with
       | none => 0 | some .poll => 1 | some .solicit => 2 | some .offer => 3 | some .release => 4 | some .probe => 5
       | some .relay => 6),
      (if s.pins.fault then 1 else 0), byteOf s.relays.length, byteOf s.releases.length, byteOf s.enrol.offers.length,
      byteOf s.poll.ring.length] ++ halfBytes s.poll.rounds ++ halfBytes s.engine.collisions)))

/-- READ_CHANGES takes the lowest `max` members in ascending slot order with their reasons and lease states, leaves the others
with their reasons, and clears CHANGES, bit 2, when none is left; a max outside 1..8 is BAD_ARG. A slot handed over adds its
reason to those it has, STATE bit 0, STATUS bit 1, QUALITY bit 2, and sets CHANGES. -/
def Obligations.ReadChangesTakesTheLowestMembers : Prop :=
  (∀ (s : State) (n : Slot) (r : Reason), ∃ changes : Vector (BitVec 3) 64,
    (∀ m : Slot, changes[m] = if m = n then s.causes.changes[m] ||| (match r with
      | .state => 1
      | .status => 2
      | .quality => 4) else s.causes.changes[m]) ∧
    s.handOver n r = { s with causes := { s.causes with changes := changes, flags := s.causes.flags ||| 0x0004 } }) ∧
  ∀ (s : State) (k tag m : Byte) (rest : List ReqEntry), s.Takes [k, 0x0A, tag, m] rest →
    (m.toNat < 1 ∨ 8 < m.toNat →
      exec .readChanges s = .next ((s.popped rest).replied [4, 0x0A, tag, 0x04])) ∧
    (1 ≤ m.toNat → m.toNat ≤ 8 → ∀ taken left : List Slot,
      (taken ++ left).Pairwise (fun a b => a < b) → (∀ n : Slot, n ∈ taken ++ left ↔ s.causes.changes[n] ≠ 0) →
      taken.length ≤ m.toNat → (taken.length < m.toNat → left = []) →
      ∃ changes : Vector (BitVec 3) 64,
        (∀ n : Slot, changes[n] = if n ∈ taken then 0 else s.causes.changes[n]) ∧
        exec .readChanges s = .next (({ s.popped rest with causes := { s.causes with
            changes := changes
            flags := if left = [] then s.causes.flags &&& 0xFFFB else s.causes.flags } }).replied
          ([byteOf (6 + 3 * taken.length), 0x0A, tag, 0x00, byteOf taken.length, byteOf left.length] ++
            (taken.map (fun n : Slot => [byteOf n.val, (s.causes.changes[n]).setWidth 8,
              match s.lease n with
              | none => 0
              | some l =>
                match l.status with
                | .reserved => 1 | .offered _ => 2 | .bound _ _ => 3 | .suspect _ _ => 4 | .lost _ => 5
                | .releasing _ => 6])).flatten)))

/-- READ_SLOT answers every slot of 0..63 with 32 bytes, each field at its offset of Table 9-8; a byte of 64 or more is
BAD_ARG. It changes nothing apart from its response. Multi-byte fields travel low byte first, and the lease states, origins and
priors have the codes of Table 9-7. That bits 3 to 7 of the flags byte are 0 is the model's choice (log entry 30). -/
def Obligations.ReadSlotReturnsTheRecord : Prop :=
  (∀ lo hi b0 b1 b2 b3 b4 b5 : Byte, ∀ v : Nat,
    halfBytes (hi ++ lo) = [lo, hi] ∧ natBytes v = [BitVec.ofNat 8 v, BitVec.ofNat 8 (v / 256)] ∧
    identityBytes (b5 ++ b4 ++ b3 ++ b2 ++ b1 ++ b0) = [b0, b1, b2, b3, b4, b5]) ∧
  (∀ (p : Prior) (t m : Nat),
    [LeaseStatus.reserved, .offered p, .bound t m, .suspect t m, .lost t, .releasing t].map LeaseStatus.code =
      [1, 2, 3, 4, 5, 6]) ∧
  [Origin.joined, .adopted, .pinned].map Origin.code = [0, 1, 2] ∧
  [Prior.fresh, .reserved, .lost].map Prior.code = [0, 1, 2] ∧
  ∀ (s : State) (k tag b : Byte) (rest : List ReqEntry), s.Takes [k, 0x10, tag, b] rest →
    (64 ≤ b.toNat → exec .readSlot s = .next ((s.popped rest).replied [4, 0x10, tag, 0x04])) ∧
    (∀ n : Slot, b.toNat = n.val →
      (s.lease n = none →
        exec .readSlot s = .next ((s.popped rest).replied ([36, 0x10, tag, 0x00, b] ++ List.replicate 30 0 ++
          [if n ∈ s.poll.slots then 4 else 0]))) ∧
      (∀ l : Lease, s.lease n = some l → ∃ record : List Byte,
        exec .readSlot s = .next ((s.popped rest).replied ([36, 0x10, tag, 0x00] ++ record)) ∧
        record.length = 32 ∧ record.take 2 = [b, l.status.code] ∧
        (record.drop 4).take 6 = identityBytes l.identity ∧
        (record.drop 10).take 4 = [byteOf (addressNumber l.address), l.cls.getD 0, l.origin.code,
          match l.status with | .offered p => p.code | _ => 0] ∧
        (record.drop 14).take 5 =
          natBytes (match l.status with | .bound t _ => t | .suspect t _ => t | .releasing t => t | _ => 0) ++
          natBytes (match l.status with | .lost q => q | _ => 0) ++
          [byteOf (match l.status with | .bound _ m => m | .suspect _ m => m | _ => 0)] ∧
        (record.drop 19).take 2 = [byteOf l.cadence, byteOf l.cadenceCount] ∧
        (record.drop 21).take 4 = halfBytes (l.lastStatus.getD 0) ++ halfBytes (l.label.getD 0) ∧
        (record.drop 25).take 6 = [byteOf l.windowAttempts] ++ natBytes l.windowBad ++
          natBytes (l.lastWindowBad.getD 0) ++ [l.windowsClosed] ∧
        (record.drop 31) = [byteOf ((if l.poor then 1 else 0) + 2 + (if n ∈ s.poll.slots then 4 else 0))] ∧
        ∃ presence : Half, (record.drop 2).take 2 = halfBytes presence ∧
          ∀ i, i < 16 → presence.getLsbD i =
            (match i with
             | 2 => l.cls.isSome
             | 4 => (match l.status with | .offered _ => true | _ => false)
             | 5 => (match l.status with | .bound _ _ => true | .suspect _ _ => true | .releasing _ => true | _ => false)
             | 6 => (match l.status with | .lost _ => true | _ => false)
             | 7 => (match l.status with | .bound _ _ => true | .suspect _ _ => true | _ => false)
             | 10 => l.lastStatus.isSome
             | 11 => l.label.isSome
             | 14 => l.lastWindowBad.isSome
             | _ => true)))

/-- LOOKUP_IDENTITY finds the one lease that holds the identity and answers its slot and summary, NOT_FOUND when none does;
LOOKUP_ADDRESS answers the condition of every address of 1..126, BAD_ARG outside. The summary has the nine bytes of Table 9-9,
with one time field. Neither changes anything apart from the response. That bit 7 of the presence byte is 0 is the model's
choice (log entry 30). -/
def Obligations.LookupsReportLeasesAndAddresses : Prop :=
  (∀ (s : State) (k tag : Byte) (rest : List ReqEntry), s.IdentitiesUnique →
    (∀ b0 b1 b2 b3 b4 b5 : Byte, s.Takes [k, 0x11, tag, b0, b1, b2, b3, b4, b5] rest →
      (∀ (n : Slot) (l : Lease), s.lease n = some l → l.identity = b5 ++ b4 ++ b3 ++ b2 ++ b1 ++ b0 →
        exec .lookupIdentity s =
          .next ((s.popped rest).replied ([14, 0x11, tag, 0x00, byteOf n.val] ++ leaseSummary l))) ∧
      ((∀ n : Slot, ∀ l ∈ s.lease n, l.identity ≠ b5 ++ b4 ++ b3 ++ b2 ++ b1 ++ b0) →
        exec .lookupIdentity s = .next ((s.popped rest).replied [4, 0x11, tag, 0x02]))) ∧
    (∀ b : Byte, s.Takes [k, 0x12, tag, b] rest →
      (b.toNat < 1 ∨ 126 < b.toNat →
        exec .lookupAddress s = .next ((s.popped rest).replied [4, 0x12, tag, 0x04])) ∧
      (∀ a : Address, b.toNat = addressNumber a →
        (s.entry a = .free →
          exec .lookupAddress s = .next ((s.popped rest).replied [6, 0x12, tag, 0x00, b, 0])) ∧
        (∀ q, s.entry a = .quarantined q →
          exec .lookupAddress s = .next ((s.popped rest).replied ([8, 0x12, tag, 0x00, b, 1] ++ natBytes q))) ∧
        (∀ n l, s.entry a = .held n → s.lease n = some l →
          exec .lookupAddress s = .next ((s.popped rest).replied
            ([22, 0x12, tag, 0x00, b, 2, byteOf n.val] ++ identityBytes l.identity ++ leaseSummary l)))))) ∧
  (∀ l : Lease, ∃ presence : Byte,
    leaseSummary l = [l.status.code, presence, byteOf (addressNumber l.address), l.cls.getD 0, l.origin.code] ++
      natBytes (match l.status with
        | .bound t _ => t | .suspect t _ => t | .releasing t => t | .lost q => q | _ => 0) ++
      [byteOf (match l.status with | .bound _ m => m | .suspect _ m => m | _ => 0), if l.poor then 1 else 0] ∧
    ∀ i, i < 8 → presence.getLsbD i =
      (match i with
       | 1 => l.cls.isSome
       | 3 => (match l.status with
               | .bound _ _ => true | .suspect _ _ => true | .releasing _ => true | .lost _ => true | _ => false)
       | 4 => (match l.status with | .lost _ => true | _ => false)
       | 5 => (match l.status with | .bound _ _ => true | .suspect _ _ => true | _ => false)
       | 7 => false
       | _ => true))

/-! ### Configuration -/

/-- READ_CONFIG answers `count` consecutive parameters from `first`, in identifier order, each as it stands; arguments out of
range are BAD_ARG. It changes nothing apart from its response. -/
def Obligations.ReadConfigReturnsConsecutiveValues : Prop :=
  ∀ (s : State) (k tag first count : Byte) (rest : List ReqEntry), s.Takes [k, 0x04, tag, first, count] rest →
    (1 ≤ first.toNat ∧ first.toNat ≤ 22 ∧ 1 ≤ count.toNat ∧ count.toNat ≤ 16 ∧ first.toNat + count.toNat ≤ 23 →
      exec .readConfig s = .next ((s.popped rest).replied
        ([byteOf (6 + 2 * count.toNat), 0x04, tag, 0x00, first, count] ++
          (((Param.all.drop (first.toNat - 1)).take count.toNat).map
            (fun q => natBytes (s.params.get q))).flatten))) ∧
    (¬(1 ≤ first.toNat ∧ first.toNat ≤ 22 ∧ 1 ≤ count.toNat ∧ count.toNat ≤ 16 ∧ first.toNat + count.toNat ≤ 23) →
      exec .readConfig s = .next ((s.popped rest).replied [4, 0x04, tag, 0x04]))

/-- CONFIGURE is checked on its identifier and range, then on the condition of the last column of Table 8-4; when taken it writes
that parameter alone, and in the same change restarts the prescaler (01h), clears every miss_count (0Ah, 0Bh) or restarts the
open windows (13h, a new value). The ranges and conditions are those of the table. -/
def Obligations.ConfigureWritesAParameterInItsRange : Prop :=
  (∀ (s : State) (k tag id lo hi : Byte) (rest : List ReqEntry), s.Takes [k, 0x03, tag, id, lo, hi] rest →
    let v := (hi ++ lo).toNat
    (id.toNat < 1 ∨ 22 < id.toNat →
      exec .configure s = .next ((s.popped rest).replied [7, 0x03, tag, 0x04, id, 0, 0])) ∧
    ∀ (i : Nat) (q : Param), Param.all[i]? = some q → id.toNat = i + 1 →
      let before := s.params.get q
      (s.params.admits v q = false →
        exec .configure s = .next ((s.popped rest).replied ([7, 0x03, tag, 0x04, id] ++ natBytes before))) ∧
      (s.params.admits v q = true → s.canWrite q = false →
        exec .configure s = .next ((s.popped rest).replied ([7, 0x03, tag, 0x01, id] ++ natBytes before))) ∧
      (s.params.admits v q = true → s.canWrite q = true → ∃ slots : Vector (Option Lease) 64,
        (∀ n : Slot, slots[n] = (s.lease n).map (fun l =>
          if q = .suspectAfter ∨ q = .lostAfter then
            (match l.status with
             | .bound term _ => { l with status := .bound term 0 }
             | .suspect term _ => { l with status := .suspect term 0 }
             | _ => l)
          else if q = .windowSize ∧ before ≠ v then { l with windowAttempts := 0, windowBad := 0 }
          else l)) ∧
        exec .configure s = .next (({ s.popped rest with
            table := { s.table with slots := slots }
            timing := { s.timing with
              params := s.params.put v q
              prescaler := if q = Param.refclkKhz then 0 else s.timing.prescaler } }).replied
          ([9, 0x03, tag, 0x00, id] ++ natBytes before ++ natBytes v)))) ∧
  ((∀ (p : Params) (v : Nat),
    Param.all.map (p.admits v) =
      [decide (4000 ≤ v ∧ v ≤ 32000), decide (3 ≤ v ∧ v ≤ 4095), decide (v ≤ 1), decide (1 ≤ v ∧ v ≤ 15),
       decide (1 ≤ v ∧ v ≤ 15), decide (v ≤ 3), decide (v ≤ 3), decide (v ≤ 3), decide (v ≤ 3),
       decide (1 ≤ v ∧ v ≤ p.lostAfter), decide (p.suspectAfter ≤ v ∧ v ≤ 15), decide (1 ≤ v ∧ v ≤ 255),
       decide (v ≤ 255), decide (v ≤ 1), decide (100 ≤ v ∧ v ≤ 60000), decide (10 ≤ v ∧ v ≤ 60000),
       decide (10 ≤ v ∧ v ≤ 60000), decide (v ≤ 1), decide (v = 16 ∨ v = 256), decide (v ≤ 255), decide (v ≤ 5000),
       decide (1 ≤ v ∧ v ≤ 8)]) ∧
  (∀ (p : Params) (v : Nat) (q r : Param), (p.put v q).get r = if r = q then v else p.get r) ∧
  (∀ (s : State) (q : Param), s.canWrite q = true ↔
    (q = .refclkKhz → s.engine.state = .off) ∧
    (q = .bitDivider ∨ q = .oddStep ∨ q = .replyWait ∨ q = .guardTime →
      s.engine.state = .off ∨ s.engine.state = .held) ∧
    (q = .stepSource → s.census.state = .idle)))

/-! ### Trunk control -/

/-- TRUNK_CONTROL ENABLE leaves OFF for IDLE or HELD by the level of TRUNK_FAULT; DISABLE enters OFF at once from IDLE and HELD
with ENGINE_OFF, bit 15, and otherwise becomes pending with 5 bytes reserved; either is BUSY while one is pending; another
action is BAD_ARG. The engine states have the codes of Table 9-7. -/
def Obligations.EnableAndDisableMoveTheEngine : Prop :=
  [EngineState.off, .idle, .send, .listen, .receive, .guarding, .held].map EngineState.code = [0, 1, 2, 3, 4, 5, 6] ∧
  ∀ (s : State) (k tag : Byte) (rest : List ReqEntry),
    (∀ action : Byte, s.Takes [k, 0x05, tag, action] rest → action ≠ 1 → action ≠ 2 → action ≠ 3 →
      exec .enable s = .next ((s.popped rest).replied [4, 0x05, tag, 0x04])) ∧
    (s.Takes [k, 0x05, tag, 1] rest →
      (s.engine.pendingDisable.isSome = true →
        exec .enable s = .next ((s.popped rest).replied [5, 0x05, tag, 0x01, s.engine.state.code])) ∧
      (s.engine.pendingDisable = none → s.engine.state ≠ .off →
        exec .enable s = .next ((s.popped rest).replied [5, 0x05, tag, 0x00, s.engine.state.code])) ∧
      (s.engine.pendingDisable = none → s.engine.state = .off →
        exec .enable s = .next (((s.popped rest).inState (if s.pins.fault then .held else .idle)).replied
          [5, 0x05, tag, 0x00, if s.pins.fault then 6 else 1]))) ∧
    (s.Takes [k, 0x05, tag, 2] rest →
      (s.engine.pendingDisable.isSome = true →
        exec .disable s = .next ((s.popped rest).replied [5, 0x05, tag, 0x01, s.engine.state.code])) ∧
      (s.engine.pendingDisable = none → s.engine.state = .off →
        exec .disable s = .next ((s.popped rest).replied [5, 0x05, tag, 0x00, 0])) ∧
      (s.engine.pendingDisable = none → s.engine.state = .idle ∨ s.engine.state = .held →
        exec .disable s = .next (({ (s.popped rest).inState .off with
          causes := { s.causes with flags := s.causes.flags ||| 0x8000 } }).replied [5, 0x05, tag, 0x00, 0])) ∧
      (s.engine.pendingDisable = none → s.engine.state ≠ .off → s.engine.state ≠ .idle → s.engine.state ≠ .held →
        exec .disable s = .next { s with
          host := { s.host with requests := rest, reserved := s.host.reserved + 5 }
          engine := { s.engine with pendingDisable := some tag } }))

/-- RESET_TRUNK settles everything at once by Table 3-7: both queues and the Offer List empty, OFFERED and RELEASING leases
settled, the census and the poll scheduler stopped, the Engine OFF with ENGINE_OFF. Its responses stand in the order relays,
graceful RETIREs, DISABLE, its own. In CONTINUOUS with members a new round begins. -/
def Obligations.ResetTrunkSettlesAllTrunkWork : Prop :=
  ∀ (s : State) (k tag : Byte) (rest : List ReqEntry), s.Takes [k, 0x05, tag, 3] rest →
    s.MapMatches → s.OffersMatch → s.ReleasesMatch →
    ∃ (slots : Vector (Option Lease) 64) (map : Vector AddrEntry 126) (changes : Vector (BitVec 3) 64),
      (∀ n : Slot, slots[n] = (s.lease n).bind (fun l =>
        match l.status with
        | .releasing _ => none
        | .offered .fresh => none
        | .offered .reserved => some { l with status := .reserved }
        | .offered .lost => some { l with status := .lost (s.params.leaseTerm * 4 + s.params.quarantineMin) }
        | _ => some l)) ∧
      (∀ a : Address, map[a] =
        match (s.entry a).holder.bind s.lease with
        | none => s.entry a
        | some l =>
          match l.status with
          | .releasing term => quarantineEntry (term + s.params.quarantineMin)
          | .offered .fresh => quarantineEntry (s.params.leaseTerm * 4 + s.params.quarantineMin)
          | _ => s.entry a) ∧
      (∀ n : Slot, changes[n] =
        if isReleasing (s.lease n) || isOffered (s.lease n) then s.causes.changes[n] ||| 1 else s.causes.changes[n]) ∧
      let settled : State := { s.popped rest with
        table := { slots := slots, map := map }
        enrol := { s.enrol with offers := [], solicitDue := false }
        census := { s.census with state := .idle, stepPending := false, pending := none, detached := none }
        releases := [], relays := []
        poll := { s.poll with
          ring := s.poll.ring.map (fun m => { m with visited := false })
          pending := none, detached := none
          state := if s.poll.mode = .off then .off else .wait }
        causes := { s.causes with
          changes := changes
          flags := if allSlots.any (fun n => isReleasing (s.lease n) || isOffered (s.lease n)) then s.causes.flags ||| 0x0004
            else s.causes.flags } }
      let t := if s.poll.mode = .continuous ∧ s.poll.ring ≠ [] then settled.beginRound else settled
      exec .resetTrunk s = .next { t with
        engine := { s.engine with
          state := .off, txn := none, burst := 0, pendingDisable := none, clock := 0, guardFrom := 0
          reception := Reception.reset }
        causes := { t.causes with flags := t.causes.flags ||| 0x8002 }
        host := { s.host with
          requests := rest
          responses := s.host.responses ++ (s.relays.map (fun e => [4, 0x28, e.tag, 0x0C])).flatten ++
            (s.releases.map (fun e =>
              match e.reason with
              | .retire _ retireTag => [4, 0x15, retireTag, 0x0C]
              | _ => [])).flatten ++
            (match s.engine.pendingDisable with
             | some disableTag => [5, 0x05, disableTag, 0x00, 0]
             | none => []) ++ [5, 0x05, tag, 0x00, 0]
          reserved := s.host.reserved - s.deferredBytes } }

/-! ### Requests of the Lease Table -/

/-- SET_FIELDS sets the cadence and the label of a lease that is not FREE and nothing else; cadence_count becomes the smaller
of its value and a new cadence. That the two label bytes of the response are 0 when the label is absent is the model's choice (log
entry 33). -/
def Obligations.SetFieldsChangesCadenceAndLabel : Prop :=
  ∀ (s : State) (k tag b c action lo hi : Byte) (rest : List ReqEntry),
    s.Takes [k, 0x13, tag, b, c, action, lo, hi] rest →
    (64 ≤ b.toNat ∨ 8 < c.toNat ∨ 2 < action.toNat →
      exec .setFields s = .next ((s.popped rest).replied [4, 0x13, tag, 0x04])) ∧
    (∀ n : Slot, b.toNat = n.val → c.toNat ≤ 8 → action.toNat ≤ 2 →
      (s.lease n = none → exec .setFields s = .next ((s.popped rest).replied [4, 0x13, tag, 0x02])) ∧
      (∀ l : Lease, s.lease n = some l →
        let cadence := if c.toNat = 0 then l.cadence else c.toNat
        let count := if c.toNat = 0 then l.cadenceCount else min l.cadenceCount c.toNat
        let label := if action.toNat = 0 then l.label else if action.toNat = 1 then some (hi ++ lo) else none
        exec .setFields s = .next (((s.popped rest).putLease n
            (some { l with cadence := cadence, cadenceCount := count, label := label })).replied
          ([10, 0x13, tag, 0x00, b, byteOf cadence, byteOf count, if label.isSome then 1 else 0] ++
            halfBytes (label.getD 0)))))

/-- PIN is checked in the order of R19; when every check passes, the lowest FREE slot becomes RESERVED at the address, which
becomes HELD by it, and the slot is handed over with STATE. A PIN that fails changes nothing. A record or an entry written is
read back, and every other stays. -/
def Obligations.PinReservesTheLowestFreeSlot : Prop :=
  (∀ (s : State) (n m : Slot) (l : Option Lease), (s.putLease n l).lease m = if m = n then l else s.lease m) ∧
  (∀ (s : State) (a b : Address) (e : AddrEntry), (s.putEntry a e).entry b = if b = a then e else s.entry b) ∧
  ∀ (s : State) (k tag b0 b1 b2 b3 b4 b5 ad : Byte) (rest : List ReqEntry),
    s.Takes [k, 0x14, tag, b0, b1, b2, b3, b4, b5, ad] rest → s.IdentitiesUnique →
    let x : Identity := b5 ++ b4 ++ b3 ++ b2 ++ b1 ++ b0
    (ad.toNat < 1 ∨ 126 < ad.toNat → exec .pin s = .next ((s.popped rest).replied [4, 0x14, tag, 0x04])) ∧
    ∀ a : Address, ad.toNat = addressNumber a →
      (∀ (n : Slot) (l : Lease), s.lease n = some l → l.identity = x →
        exec .pin s = .next ((s.popped rest).replied [5, 0x14, tag, 0x06, byteOf n.val])) ∧
      ((∀ n : Slot, ∀ l ∈ s.lease n, l.identity ≠ x) →
        (∀ n, s.entry a = .held n → exec .pin s = .next ((s.popped rest).replied [5, 0x14, tag, 0x07, byteOf n.val])) ∧
        (∀ q, s.entry a = .quarantined q → exec .pin s = .next ((s.popped rest).replied [5, 0x14, tag, 0x07, 0xFF])) ∧
        (s.entry a = .free → (∀ n : Slot, s.lease n ≠ none) →
          exec .pin s = .next ((s.popped rest).replied [4, 0x14, tag, 0x03])) ∧
        (s.entry a = .free → ∀ n : Slot, s.lease n = none → (∀ m : Slot, m < n → s.lease m ≠ none) →
          exec .pin s = .next (((((s.popped rest).putLease n (some {
              status := .reserved, identity := x, address := a, cls := none, origin := .pinned, cadence := 1
              cadenceCount := 1, lastStatus := none, label := none, windowAttempts := 0, windowBad := 0
              lastWindowBad := none, windowsClosed := 0, poor := false })).putEntry a (.held n)).handOver n .state).replied
            [5, 0x14, tag, 0x00, byteOf n.val])))

/-- A forced RETIRE frees the lease in one change: the address takes the quarantine of its state, the slot leaves the ring and
the Offer List, an ungranted pending poll of it is withdrawn, and the walk goes on. FREE is NOT_FOUND, RELEASING BUSY. A
quarantine of 0 seconds makes the entry FREE. -/
def Obligations.ForcedRetireFreesTheLease : Prop :=
  (∀ q : Nat, quarantineEntry q = if q = 0 then .free else .quarantined q) ∧
  ∀ (s : State) (k tag b m : Byte) (rest : List ReqEntry), s.Takes [k, 0x15, tag, b, m] rest → m ≠ 0 →
    (64 ≤ b.toNat ∨ m ≠ 1 → exec .retireForced s = .next ((s.popped rest).replied [4, 0x15, tag, 0x04])) ∧
    (∀ n : Slot, b.toNat = n.val → m = 1 →
      (s.lease n = none → exec .retireForced s = .next ((s.popped rest).replied [4, 0x15, tag, 0x02])) ∧
      (∀ l, s.lease n = some l → isReleasing (some l) = true →
        exec .retireForced s =
          .next ((s.popped rest).replied [6, 0x15, tag, 0x01, 6, byteOf (addressNumber l.address)])) ∧
      (∀ l, s.lease n = some l → isReleasing (some l) = false →
        let q := match l.status with
          | .bound term _ => term + s.params.quarantineMin
          | .suspect term _ => term + s.params.quarantineMin
          | .lost left => left
          | .offered _ => s.params.leaseTerm * 4 + s.params.quarantineMin
          | _ => 0
        let freed : State := (((s.popped rest).putLease n none).putEntry l.address
          (if q = 0 then .free else .quarantined q)).handOver n .state
        let t : State := { freed with
          poll := { s.poll with
            ring := s.poll.ring.filter (fun r => r.slot ≠ n)
            pending := if s.poll.pending = some ⟨n, false⟩ then none else s.poll.pending }
          enrol := { s.enrol with offers := s.enrol.offers.filter (fun o => o.slot ≠ n) } }
        exec .retireForced s = .next (t.pollSettle.replied
          ([10, 0x15, tag, 0x00, b, l.status.code, byteOf (addressNumber l.address)] ++
            (if q = 0 then [0, 0, 0] else 1 :: natBytes q)))))

/-- A graceful RETIRE is checked in the order of R21 and Table 7-2; when taken, the lease becomes RELEASING with its term
frozen, leaves the ring, has its Release Queue entry, and its response is deferred with 11 bytes reserved. -/
def Obligations.GracefulRetireStartsTheRelease : Prop :=
  ∀ (s : State) (k tag b : Byte) (rest : List ReqEntry), s.Takes [k, 0x15, tag, b, 0] rest →
    (64 ≤ b.toNat → exec .retireGraceful s = .next ((s.popped rest).replied [4, 0x15, tag, 0x04])) ∧
    (∀ n : Slot, b.toNat = n.val →
      (s.lease n = none → exec .retireGraceful s = .next ((s.popped rest).replied [4, 0x15, tag, 0x02])) ∧
      (∀ l, s.lease n = some l →
        let refusal (r : Byte) : State :=
          (s.popped rest).replied [6, 0x15, tag, r, l.status.code, byteOf (addressNumber l.address)]
        let entry : Release := { address := l.address, reason := .retire n tag, inFlight := false }
        let started (term : Nat) (queue : List Release) : State :=
          let u := ((s.popped rest).putLease n (some { l with status := .releasing term })).handOver n .state
          State.pollSettle { u with
            releases := queue
            poll := { s.poll with
              ring := s.poll.ring.filter (fun r => r.slot ≠ n)
              pending := if s.poll.pending = some ⟨n, false⟩ then none else s.poll.pending } }
        let deferred (u : State) : State := { u with host := { u.host with reserved := u.host.reserved + 11 } }
        (isReleasing (some l) = true → exec .retireGraceful s = .next (refusal 0x01)) ∧
        (isBound (some l) = false → isReleasing (some l) = false → exec .retireGraceful s = .next (refusal 0x05)) ∧
        (∀ term miss, l.status = .bound term miss ∨ l.status = .suspect term miss →
          (∀ before e after, s.releases = before ++ e :: after → e.address = l.address →
            (∀ r ∈ before ++ after, r.address ≠ l.address) →
            (e.inFlight = true → exec .retireGraceful s = .next (refusal 0x01)) ∧
            (e.inFlight = false → exec .retireGraceful s = .next (deferred
              (started term (before ++ entry :: after))))) ∧
          ((∀ e ∈ s.releases, e.address ≠ l.address) →
            (16 ≤ s.releases.length → exec .retireGraceful s = .next (refusal 0x03)) ∧
            (s.releases.length < 16 → exec .retireGraceful s = .next (deferred
              (started term (s.releases ++ [entry]))))))))

/-! ### Requests of the Enrolment Unit -/

/-- SET_ENROL_MODE changes the mode, clears solicit due when it is CLOSED, and leaves the lists, the timer and the solicit
number. -/
def Obligations.SetEnrolModeChangesTheMode : Prop :=
  [EnrolMode.closed, .listed, .opened].map EnrolMode.code = [0, 1, 2] ∧
  ∀ (s : State) (k tag m : Byte) (rest : List ReqEntry), s.Takes [k, 0x18, tag, m] rest →
    (2 < m.toNat → exec .setEnrolMode s = .next ((s.popped rest).replied [4, 0x18, tag, 0x04])) ∧
    (∀ mode : EnrolMode, mode.code = m →
      let due := s.enrol.solicitDue && decide (mode ≠ .closed)
      exec .setEnrolMode s = .next (({ s.popped rest with
          enrol := { s.enrol with mode := mode, solicitDue := due } }).replied
        [8, 0x18, tag, 0x00, s.enrol.mode.code, m, if due then 1 else 0, byteOf s.enrol.offers.length]))

/-- The Admission List: ADMIT_ADD appends an identity it does not hold while it has room, ADMIT_REMOVE takes one out and closes
the gap, ADMIT_CLEAR empties it, ADMIT_READ reads one entry; each refusal changes nothing. -/
def Obligations.AdmissionListRequests : Prop :=
  ∀ (s : State) (k tag : Byte) (rest : List ReqEntry),
    let list := s.enrol.admission
    let with_ (xs : List Identity) : State := { s.popped rest with enrol := { s.enrol with admission := xs } }
    (∀ b0 b1 b2 b3 b4 b5 : Byte, s.Takes [k, 0x19, tag, b0, b1, b2, b3, b4, b5] rest →
      let x : Identity := b5 ++ b4 ++ b3 ++ b2 ++ b1 ++ b0
      (∀ before after, list = before ++ x :: after → x ∉ before →
        exec .admitAdd s = .next ((s.popped rest).replied [5, 0x19, tag, 0x06, byteOf before.length])) ∧
      (x ∉ list → 32 ≤ list.length →
        exec .admitAdd s = .next ((s.popped rest).replied [5, 0x19, tag, 0x03, byteOf list.length])) ∧
      (x ∉ list → list.length < 32 →
        exec .admitAdd s = .next ((with_ (list ++ [x])).replied
          [6, 0x19, tag, 0x00, byteOf list.length, byteOf (list.length + 1)]))) ∧
    (∀ b0 b1 b2 b3 b4 b5 : Byte, s.Takes [k, 0x1A, tag, b0, b1, b2, b3, b4, b5] rest →
      let x : Identity := b5 ++ b4 ++ b3 ++ b2 ++ b1 ++ b0
      (x ∉ list → exec .admitRemove s = .next ((s.popped rest).replied [5, 0x1A, tag, 0x02, byteOf list.length])) ∧
      (∀ before after, list = before ++ x :: after → x ∉ before →
        exec .admitRemove s = .next ((with_ (before ++ after)).replied
          [6, 0x1A, tag, 0x00, byteOf before.length, byteOf (list.length - 1)]))) ∧
    (s.Takes [k, 0x1B, tag] rest →
      exec .admitClear s = .next ((with_ []).replied [5, 0x1B, tag, 0x00, byteOf list.length])) ∧
    (∀ i : Byte, s.Takes [k, 0x1C, tag, i] rest →
      (31 < i.toNat → exec .admitRead s = .next ((s.popped rest).replied [4, 0x1C, tag, 0x04])) ∧
      (i.toNat ≤ 31 → list.length ≤ i.toNat →
        exec .admitRead s = .next ((s.popped rest).replied [5, 0x1C, tag, 0x02, byteOf list.length])) ∧
      (i.toNat ≤ 31 → ∀ x, list[i.toNat]? = some x →
        exec .admitRead s =
          .next ((s.popped rest).replied ([11, 0x1C, tag, 0x00] ++ identityBytes x ++ [byteOf list.length]))))

/-! ### Requests of the Poll Scheduler, and the walk -/

/-- RING_MOVE is checked in the order of R101; when taken, the member stands immediately before the anchor, or at the tail, with
its mark, and every other member keeps its mark and its order. -/
def Obligations.RingMovePlacesTheMember : Prop :=
  ∀ (s : State) (k tag b c : Byte) (rest : List ReqEntry), s.Takes [k, 0x16, tag, b, c] rest →
    let moved (ring : List RingMember) (position : Nat) : State :=
      ({ s.popped rest with poll := { s.poll with ring := ring } }).replied
        [6, 0x16, tag, 0x00, byteOf position, byteOf s.poll.ring.length]
    (64 ≤ b.toNat ∨ (64 ≤ c.toNat ∧ c ≠ 0xFF) ∨ b = c →
      exec .ringMove s = .next ((s.popped rest).replied [4, 0x16, tag, 0x04])) ∧
    (∀ n : Slot, b.toNat = n.val →
      (n ∉ s.poll.slots → c = 0xFF ∨ (c.toNat < 64 ∧ b ≠ c) →
        exec .ringMove s = .next ((s.popped rest).replied [4, 0x16, tag, 0x02])) ∧
      (n ∈ s.poll.slots → ∀ a : Slot, c.toNat = a.val → a ≠ n → a ∉ s.poll.slots →
        exec .ringMove s = .next ((s.popped rest).replied [4, 0x16, tag, 0x02])) ∧
      (s.poll.slots.Nodup → ∀ m ∈ s.poll.ring, m.slot = n →
        let others := s.poll.ring.filter (fun r => r.slot ≠ n)
        (c = 0xFF → exec .ringMove s = .next (moved (others ++ [m]) others.length)) ∧
        (∀ before anchor after, others = before ++ anchor :: after → c.toNat = anchor.slot.val →
          exec .ringMove s = .next (moved (before ++ m :: anchor :: after) before.length))))

/-- POLL_CONTROL: the present mode changes nothing; to OFF the round ends and a poll in flight is detached; from OFF the state
becomes WAIT; in CONTINUOUS a round begins at once from WAIT when the ring is not empty; a running round goes on. POLL_ROUND
begins a round in SINGLE and WAIT, and is BAD_STATE in another mode and BUSY while a round runs. That the response shows WAIT when
the first walk step passes every member is the model's reading (log entry 23). -/
def Obligations.PollRequestsSetTheModeAndBeginRounds : Prop :=
  [PollMode.off, .continuous, .paced, .single].map PollMode.code = [0, 1, 2, 3] ∧
  [SchedulerState.off, .wait, .round].map SchedulerState.code = [0, 1, 2] ∧
  (∀ (s : State) (k tag m : Byte) (rest : List ReqEntry), s.Takes [k, 0x20, tag, m] rest →
    (3 < m.toNat → exec .pollControl s = .next ((s.popped rest).replied [4, 0x20, tag, 0x04])) ∧
    (∀ mode : PollMode, mode.code = m →
      let done (t : State) : State :=
        t.replied ([9, 0x20, tag, 0x00, s.poll.mode.code, t.poll.mode.code, t.poll.state.code] ++ halfBytes t.poll.rounds)
      let state := if s.poll.state = .off then .wait else s.poll.state
      let entered : State := { s.popped rest with poll := { s.poll with mode := mode, state := state } }
      (mode = s.poll.mode → exec .pollControl s = .next (done (s.popped rest))) ∧
      (mode = .off → s.poll.mode ≠ .off →
        exec .pollControl s = .next (done { s.popped rest with poll := { s.poll with
          mode := .off, state := .off, pending := none
          detached := match s.poll.pending with
            | some ⟨n, true⟩ => some n
            | _ => s.poll.detached } })) ∧
      (mode ≠ .off → mode ≠ s.poll.mode → ¬(mode = .continuous ∧ state = .wait ∧ s.poll.ring ≠ []) →
        exec .pollControl s = .next (done entered)) ∧
      (mode = .continuous → mode ≠ s.poll.mode → state = .wait → s.poll.ring ≠ [] →
        exec .pollControl s = .next (done entered.beginRound)))) ∧
  (∀ (s : State) (k tag : Byte) (rest : List ReqEntry), s.Takes [k, 0x21, tag] rest →
    (s.poll.mode ≠ .single → exec .pollRound s = .next ((s.popped rest).replied [4, 0x21, tag, 0x05])) ∧
    (s.poll.mode = .single → s.poll.state = .round →
      exec .pollRound s = .next ((s.popped rest).replied [4, 0x21, tag, 0x01])) ∧
    (s.poll.mode = .single → s.poll.state = .wait →
      let t := State.walkStep { s.popped rest with poll := { s.poll with
        state := .round, ring := s.poll.ring.map (fun m => { m with visited := false }) } }
      exec .pollRound s = .next (t.replied
        ([8, 0x21, tag, 0x00, byteOf s.poll.ring.length, t.poll.state.code] ++ halfBytes t.poll.rounds))))

/-- A walk step passes the unvisited members that are not due, lowering each cadence_count and setting each mark, and names the
first that is due with its cadence_count reloaded; when none is left the round ends with ROUND_DONE, bit 3, and its count, in
WAIT outside CONTINUOUS or over an empty ring; in CONTINUOUS over members a new round begins at once, its marks clear, with a
further walk step. A round's beginning clears the marks and takes a walk step, and a change that leaves ROUND without a pending
poll ends with one. -/
def Obligations.WalkStepNamesTheFirstDueMember : Prop :=
  (∀ s : State,
    s.beginRound = State.walkStep { s with poll := { s.poll with
      state := .round, ring := s.poll.ring.map (fun m => { m with visited := false }) } } ∧
    (s.poll.state = .round → s.poll.pending = none → s.pollSettle = s.walkStep) ∧
    (s.poll.state ≠ .round ∨ s.poll.pending ≠ none → s.pollSettle = s)) ∧
  ∀ s : State, s.RingMatches →
    let passed (r : RingMember) : Bool := r.visited || decide (2 ≤ s.countOf r.slot)
    let lower (ms : List RingMember) (n : Slot) (l : Lease) : Lease :=
      if ms.any (fun r => decide (r.slot = n) && !r.visited) then { l with cadenceCount := l.cadenceCount - 1 } else l
    let mark (r : RingMember) : RingMember := { r with visited := true }
    (∀ before m after, s.poll.ring = before ++ m :: after → before.all passed = true → passed m = false →
      ∃ slots : Vector (Option Lease) 64,
        (∀ n : Slot, slots[n] = (s.lease n).map (fun l =>
          if n = m.slot then { l with cadenceCount := l.cadence } else lower before n l)) ∧
        s.walkStep = { s with
          table := { s.table with slots := slots }
          poll := { s.poll with ring := before.map mark ++ m :: after, pending := some ⟨m.slot, false⟩ } }) ∧
    (s.poll.ring.all passed = true → s.poll.mode ≠ .continuous ∨ s.poll.ring = [] →
      ∃ slots : Vector (Option Lease) 64,
        (∀ n : Slot, slots[n] = (s.lease n).map (lower s.poll.ring n)) ∧
        s.walkStep = { s with
          table := { s.table with slots := slots }
          poll := { s.poll with ring := s.poll.ring.map mark, rounds := s.poll.rounds + 1, state := .wait }
          causes := { s.causes with flags := s.causes.flags ||| 0x0008 } }) ∧
    (s.poll.ring.all passed = true → s.poll.mode = .continuous → s.poll.ring ≠ [] →
      ∃ slots : Vector (Option Lease) 64,
        (∀ n : Slot, slots[n] = (s.lease n).map (lower s.poll.ring n)) ∧
        s.walkStep = State.walkStep { s with
          table := { s.table with slots := slots }
          poll := { s.poll with
            ring := s.poll.ring.map (fun r => { r with visited := false }), rounds := s.poll.rounds + 1, state := .round }
          causes := { s.causes with flags := s.causes.flags ||| 0x0008 } })

/-- In CONTINUOUS a walk step over a ring with members, whatever their marks, always names a poll. It ends the round in hand when
no member with a clear mark is due, and then no more rounds than the greatest cadence_count of a member: with counts of 1 to 8 at
most eight rounds in all, and at most seven when every mark is clear. -/
def Obligations.ContinuousRoundsReachADueMember : Prop :=
  ∀ s : State, s.RingMatches → s.LeasesInRange → s.poll.mode = .continuous → s.poll.ring ≠ [] → s.poll.pending = none →
    ∃ ended n, ended ≤ 8 ∧ s.walkStep.poll.rounds = s.poll.rounds + BitVec.ofNat 16 ended ∧
      s.walkStep.poll.pending = some ⟨n, false⟩ ∧ n ∈ s.poll.slots ∧
      (ended = 0 ↔ ∃ r ∈ s.poll.ring, r.visited = false ∧ s.countOf r.slot = 1) ∧
      ((∀ r ∈ s.poll.ring, r.visited = false) →
        ended ≤ 7 ∧ s.countOf n = ended + 1 ∧ ∀ r ∈ s.poll.ring, ended + 1 ≤ s.countOf r.slot)

/-! ### The Census Unit -/

/-- CENSUS_START begins a sweep from IDLE or restarts a ONCE_R sweep, detaching a probe in flight, and is BUSY otherwise; CENSUS_STOP
ends the sweep without a pass end; CENSUS_STEP gives one step in STEPPED with the host as step source; CENSUS_STATUS reports
the unit and changes nothing. -/
def Obligations.CensusRequestsStartStopAndStep : Prop :=
  [CensusMode.onceR, .once, .continuous, .stepped].map CensusMode.code = [0, 1, 2, 3] ∧
  [CensusState.idle, .running, .waitStep].map CensusState.code = [0, 1, 2] ∧
  (∀ (s : State) (k tag f l m : Byte) (rest : List ReqEntry), s.Takes [k, 0x24, tag, f, l, m] rest →
    (f.toNat < 1 ∨ 126 < f.toNat ∨ l.toNat < 1 ∨ 126 < l.toNat ∨ 3 < m.toNat →
      exec .censusStart s = .next ((s.popped rest).replied [4, 0x24, tag, 0x04])) ∧
    (∀ (first last : Address) (mode : CensusMode), f.toNat = addressNumber first → l.toNat = addressNumber last →
      mode.code = m →
      let begun : State := { s.popped rest with census := {
        state := .waitStep, mode := mode, first := first, last := last, cursor := first, beyond := false
        stepPending := false, probeNamed := false, passes := 0, adopted := 0, pending := none
        detached := match s.census.pending with
          | some ⟨a, true⟩ => some a
          | _ => s.census.detached } }
      let t := if mode = .stepped then begun else begun.censusWalk
      let done (restart : Byte) : State := t.replied
        [7, 0x24, tag, 0x00, t.census.state.code, byteOf (addressNumber t.census.cursor), restart]
      (s.census.state = .idle → exec .censusStart s = .next (done 0)) ∧
      (s.census.state ≠ .idle → s.census.mode = .onceR → exec .censusStart s = .next (done 1)) ∧
      (s.census.state ≠ .idle → s.census.mode ≠ .onceR →
        exec .censusStart s = .next ((s.popped rest).replied [4, 0x24, tag, 0x01])))) ∧
  (∀ (s : State) (k tag : Byte) (rest : List ReqEntry),
    (s.Takes [k, 0x25, tag] rest →
      (s.census.state = .idle → exec .censusStop s = .next ((s.popped rest).replied [5, 0x25, tag, 0x00, 0])) ∧
      (s.census.state ≠ .idle →
        exec .censusStop s = .next (({ s.popped rest with census := { s.census with
            state := .idle, stepPending := false, pending := none
            detached := match s.census.pending with
              | some ⟨a, true⟩ => some a
              | _ => s.census.detached } }).replied [5, 0x25, tag, 0x00, s.census.state.code]))) ∧
    (s.Takes [k, 0x26, tag] rest →
      let done (t : State) (result : Byte) : State := t.replied
        [7, 0x26, tag, 0x00, result, t.census.state.code, byteOf (addressNumber t.census.cursor)]
      (s.census.mode ≠ .stepped ∨ s.params.stepSource = 0 ∨ s.census.state = .idle →
        exec .censusStep s = .next ((s.popped rest).replied [4, 0x26, tag, 0x05])) ∧
      (s.census.mode = .stepped → s.params.stepSource ≠ 0 →
        (s.census.state = .waitStep → exec .censusStep s = .next (done (s.popped rest).censusWalk 0)) ∧
        (s.census.state = .running → s.census.stepPending = false →
          exec .censusStep s =
            .next (done { s.popped rest with census := { s.census with stepPending := true } } 1)) ∧
        (s.census.state = .running → s.census.stepPending = true →
          exec .censusStep s = .next (done (s.popped rest) 2)))) ∧
    (s.Takes [k, 0x27, tag] rest →
      exec .censusStatus s = .next ((s.popped rest).replied
        ([15, 0x27, tag, 0x00, s.census.state.code, s.census.mode.code, byteOf (addressNumber s.census.first),
          byteOf (addressNumber s.census.last), byteOf (addressNumber s.census.cursor),
          if s.census.stepPending then 1 else 0] ++ halfBytes s.census.passes ++ halfBytes s.census.adopted ++
          [((match s.census.pending with
            | none => 0
            | some ⟨_, false⟩ => 1
            | some ⟨_, true⟩ => 2) + (if s.census.detached.isSome then 4 else 0) : Byte)]))))

/-- A census walk step names the first address that is FREE, QUARANTINED or HELD by a LOST lease, in the sweep order from the
cursor on to `last`, which runs from 126 on to 1; when there is none the pass ends with CENSUS_DONE, bit 5, and its count. After
the probe of `last` the walk stands beyond it, a mark of the model's own (log entry 8), and the pass ends. -/
def Obligations.CensusWalkFollowsTheSweepOrder : Prop :=
  ∀ s : State,
    let probeable (a : Address) : Prop :=
      match s.entry a with
      | .held n => ∃ l q, s.lease n = some l ∧ l.status = .lost q
      | _ => True
    let steps : Nat := (s.census.last - s.census.cursor : Fin 126).val
    (s.census.beyond = false → ∀ d : Nat, d ≤ steps → probeable (s.census.cursor + Fin.ofNat 126 d) →
      (∀ e : Nat, e < d → ¬probeable (s.census.cursor + Fin.ofNat 126 e)) →
      s.censusWalk = { s with census := { s.census with
        state := .running, cursor := s.census.cursor + Fin.ofNat 126 d, probeNamed := true
        pending := some ⟨s.census.cursor + Fin.ofNat 126 d, false⟩ } }) ∧
    (s.census.beyond = true ∨ (∀ d : Nat, d ≤ steps → ¬probeable (s.census.cursor + Fin.ofNat 126 d)) →
      let ended (state : CensusState) : State := { s with
        census := { s.census with
          state := state, passes := s.census.passes + 1, cursor := s.census.first, beyond := false
          probeNamed := false }
        causes := { s.causes with flags := s.causes.flags ||| 0x0020 } }
      (s.census.mode = .onceR ∨ s.census.mode = .once → s.censusWalk = ended .idle) ∧
      (s.census.mode = .stepped → s.censusWalk = ended .waitStep) ∧
      (s.census.mode = .continuous → s.census.probeNamed = false → s.censusWalk = ended .waitStep) ∧
      (s.census.mode = .continuous → s.census.probeNamed = true →
        s.censusWalk = (ended s.census.state).censusWalk))

/-! ### The Relay Queue -/

/-- RELAY is checked in the order of R156; when taken it is appended with its fields and its response deferred with 18 bytes
reserved. RELAY_CANCEL takes out the first entry with the tag that is not in flight, answering it CANCELLED and then itself OK;
TOO_LATE when only the entry in flight has the tag, NOT_FOUND when none has it. A lease is bound here in BOUND and SUSPECT. -/
def Obligations.RelayQueueTakesAndWithdrawsRelays : Prop :=
  (∀ l : Lease, isBound none = false ∧ leaseCode none = 0 ∧ leaseCode (some l) = l.status.code ∧
    (isBound (some l) = true ↔ ∃ term miss, l.status = .bound term miss ∨ l.status = .suspect term miss)) ∧
  (∀ (s : State) (k tag b w r : Byte) (payload : List Byte) (rest : List ReqEntry),
    s.Takes (k :: 0x28 :: tag :: b :: w :: r :: payload) rest →
    let appended (target : RelayTarget) : State := { s.popped rest with
      relays := s.relays ++ [{
        tag := tag, target := target, waitReply := decide (w = 1), payload := payload, inFlight := false
        retries := if r = 0xFF then none else some r.toNat }]
      host := { s.host with requests := rest, reserved := s.host.reserved + 18 } }
    let valid := payload.length ≤ 8 ∧ (b.toNat < 64 ∨ b = 0xFE) ∧ w.toNat ≤ 1 ∧ (r.toNat ≤ 3 ∨ r = 0xFF)
    (¬valid → exec .relay s = .next ((s.popped rest).replied [4, 0x28, tag, 0x04])) ∧
    (valid → ∀ n : Slot, b.toNat = n.val →
      (isBound (s.lease n) = false →
        exec .relay s = .next ((s.popped rest).replied [6, 0x28, tag, 0x08, b, leaseCode (s.lease n)])) ∧
      (isBound (s.lease n) = true → 8 ≤ s.relays.length →
        exec .relay s = .next ((s.popped rest).replied [4, 0x28, tag, 0x03])) ∧
      (isBound (s.lease n) = true → s.relays.length < 8 → exec .relay s = .next (appended (.slot n)))) ∧
    (valid → b = 0xFE →
      (8 ≤ s.relays.length → exec .relay s = .next ((s.popped rest).replied [4, 0x28, tag, 0x03])) ∧
      (s.relays.length < 8 → exec .relay s = .next (appended .broadcast)))) ∧
  (∀ (s : State) (k tag c : Byte) (rest : List ReqEntry), s.Takes [k, 0x29, tag, c] rest →
    (∀ before e after, s.relays = before ++ e :: after → e.tag = c → e.inFlight = false →
      (∀ x ∈ before, x.tag = c → x.inFlight = true) →
      exec .relayCancel s = .next { s with
        relays := before ++ after
        host := { s.host with
          requests := rest
          reserved := s.host.reserved - 18
          responses := s.host.responses ++ [4, 0x28, c, 0x0C] ++
            [5, 0x29, tag, 0x00, byteOf (before ++ after).length] }
        causes := { s.causes with flags := s.causes.flags ||| 0x0002 } }) ∧
    ((∀ x ∈ s.relays, x.tag = c → x.inFlight = true) →
      ((∃ x ∈ s.relays, x.tag = c) →
        exec .relayCancel s = .next ((s.popped rest).replied [4, 0x29, tag, 0x0D])) ∧
      ((∀ x ∈ s.relays, x.tag ≠ c) →
        exec .relayCancel s = .next ((s.popped rest).replied [4, 0x29, tag, 0x02]))))

/-! ### Time -/

/-- A tick returns the prescaler to 0 and counts at the seconds count, the three interval timers and a running fault-grace
timer, which becomes SPENT and makes the fault drop due as it reaches 0 with the pin high. Events of an earlier tick that stand
untaken are taken first, in this order (the model's choice, log entry 5). -/
def Obligations.TickCountsTheTimers : Prop :=
  ∀ s : State, s.pins.rstLow = false →
    let counted (u : State) : State := { u with
      timing := { u.timing with
        prescaler := 0, seconds := u.timing.seconds + 1, pace := u.timing.pace - 1, solicit := u.timing.solicit - 1
        censusStep := u.timing.censusStep - 1 }
      engine := { u.engine with
        grace := match u.engine.grace with
          | .running n => if n ≤ 1 then .spent else .running (n - 1)
          | g => g
        dropDue := u.engine.dropDue || (u.pins.fault && match u.engine.grace with
          | .running n => decide (n ≤ 1)
          | _ => false) } }
    (s.timing.seconds < 1000 → 0 < s.timing.pace → 0 < s.timing.solicit → 0 < s.timing.censusStep →
      s.engine.dropDue = false → exec .tick s = .next (counted s)) ∧
    (∀ a b c d e : State, exec .secondsStrobe s = .next a → exec .paceExpiry a = .next b →
      exec .solicitExpiry b = .next c → exec .censusStepExpiry c = .next d → exec .faultDrop d = .next e →
      exec .tick s = .next (counted e))

/-- The seconds strobe takes every lease and every address entry once, by the state it had: terms count down and expire into
LOST with QUARANTINE_MIN, quarantines count down and free their lease under AUTO_RECLAIM or their address, and nothing else
counts. Expired leases leave the ring; each changed lease is handed over with STATE. That one walk step follows several removals
is the model's reading (log entry 9), and that a strobe not due changes nothing its choice (log entry 4). -/
def Obligations.SecondsStrobeCountsDown : Prop :=
  ∀ s : State, s.pins.rstLow = false →
    (s.timing.seconds < 1000 → exec .secondsStrobe s = .next s) ∧
    (1000 ≤ s.timing.seconds → s.MapMatches →
      let expires (n : Slot) : Bool :=
        (s.lease n).any (fun l =>
          match l.status with
          | .bound term _ => decide (term ≤ 1)
          | .suspect term _ => decide (term ≤ 1)
          | _ => false)
      let reclaimed (n : Slot) : Bool :=
        (s.lease n).any (fun l =>
          match l.status with
          | .lost q => decide (q ≤ 1 ∧ s.params.autoReclaim = 1)
          | _ => false)
      ∃ (slots : Vector (Option Lease) 64) (map : Vector AddrEntry 126) (changes : Vector (BitVec 3) 64),
        (∀ n : Slot, slots[n] = (s.lease n).bind (fun l =>
          match l.status with
          | .bound term miss =>
            some { l with status := if term ≤ 1 then .lost s.params.quarantineMin else .bound (term - 1) miss }
          | .suspect term miss =>
            some { l with status := if term ≤ 1 then .lost s.params.quarantineMin else .suspect (term - 1) miss }
          | .lost q => if q ≤ 1 ∧ s.params.autoReclaim = 1 then none else some { l with status := .lost (q - 1) }
          | _ => some l)) ∧
        (∀ a : Address, map[a] =
          match s.entry a with
          | .free => .free
          | .quarantined q => if q ≤ 1 then .free else .quarantined (q - 1)
          | .held n => if reclaimed n then .free else .held n) ∧
        (∀ n : Slot, changes[n] =
          if expires n || reclaimed n then s.causes.changes[n] ||| 1 else s.causes.changes[n]) ∧
        exec .secondsStrobe s = .next (State.pollSettle { s with
          table := { slots := slots, map := map }
          timing := { s.timing with seconds := 0 }
          poll := { s.poll with
            ring := s.poll.ring.filter (fun m => !expires m.slot)
            pending := match s.poll.pending with
              | some ⟨n, false⟩ => if expires n then none else s.poll.pending
              | p => p }
          causes := { s.causes with
            changes := changes
            flags := if allSlots.any (fun n => expires n || reclaimed n) then s.causes.flags ||| 0x0004
              else s.causes.flags } }))

/-- Each interval timer that has run out is reloaded with its period as configured now and its expiry is taken by its owner:
the pace timer begins a round or sets PACE_OVERRUN, bit 4, in PACED; the solicit timer sets solicit due outside CLOSED; the
census-step timer steps a STEPPED census with the timer as source, or begins the next pass of a waiting CONTINUOUS one. That a
timer stands at 0 until its expiry is taken, and that an expiry with a count above 0 changes nothing, are the model's choices
(log entries 5 and 4). -/
def Obligations.ExpiriesReloadAndReachTheirOwners : Prop :=
  ∀ s : State, s.pins.rstLow = false →
    (0 < s.timing.pace → exec .paceExpiry s = .next s) ∧
    (s.timing.pace = 0 →
      let t : State := { s with timing := { s.timing with pace := s.params.pollPeriod } }
      (s.poll.mode = .paced → s.poll.state = .wait → exec .paceExpiry s = .next (State.walkStep { t with poll := {
        s.poll with state := .round, ring := s.poll.ring.map (fun m => { m with visited := false }) } })) ∧
      (s.poll.mode = .paced → s.poll.state = .round → exec .paceExpiry s = .next { t with
        causes := { s.causes with flags := s.causes.flags ||| 0x0010 } }) ∧
      (s.poll.mode ≠ .paced → exec .paceExpiry s = .next t)) ∧
    (0 < s.timing.solicit → exec .solicitExpiry s = .next s) ∧
    (s.timing.solicit = 0 → exec .solicitExpiry s = .next { s with
      timing := { s.timing with solicit := s.params.solicitPeriod }
      enrol := { s.enrol with solicitDue := s.enrol.solicitDue || decide (s.enrol.mode ≠ .closed) } }) ∧
    (0 < s.timing.censusStep → exec .censusStepExpiry s = .next s) ∧
    (s.timing.censusStep = 0 →
      let t : State := { s with timing := { s.timing with censusStep := s.params.censusStepMs } }
      (s.census.state = .waitStep →
        (s.census.mode = .stepped ∧ s.params.stepSource = 0) ∨ s.census.mode = .continuous →
        exec .censusStepExpiry s = .next t.censusWalk) ∧
      (s.census.state = .running → s.census.mode = .stepped → s.params.stepSource = 0 →
        exec .censusStepExpiry s = .next { t with census := { s.census with stepPending := true } }) ∧
      (s.census.state = .idle ∨ (s.census.mode = .stepped ∧ s.params.stepSource ≠ 0) ∨ s.census.mode = .onceR ∨
          s.census.mode = .once ∨ (s.census.mode = .continuous ∧ s.census.state = .running) →
        exec .censusStepExpiry s = .next t))

/-! ### Trunk faults -/

/-- A rising of TRUNK_FAULT sets LINE_FAULT, bit 12, starts the grace timer, ends the transaction in flight LINE_FAULT at its
owner, and moves the Engine to HELD, or to OFF with a pending DISABLE answered; a SOLICIT that it cuts has no results, adds no
collision and does not set solicit due again; a falling stops the timer and leaves HELD for GUARD, after a fault drop that was
due. That the owner's response stands before the DISABLE's is the model's reading (log entry
14), and so is that a drop due is taken ahead of the falling (log entry 15). -/
def Obligations.FaultEdgesMoveTheEngine : Prop :=
  ∀ s : State, s.pins.rstLow = false →
    (s.pins.fault = false →
      let faulted : State := { s with
        pins := { s.pins with fault := true }
        engine := { s.engine with
          grace := if s.params.faultGrace = 0 then .spent else .running s.params.faultGrace
          dropDue := decide (s.params.faultGrace = 0) }
        causes := { s.causes with flags := s.causes.flags ||| 0x1000 } }
      let leave (u : State) : State :=
        match u.engine.pendingDisable with
        | none => u.inState .held
        | some tag =>
          let v := u.inState .off
          { v with
            engine := { v.engine with pendingDisable := none }
            host := { u.host with
              responses := u.host.responses ++ [5, 0x05, tag, 0x00, 0], reserved := u.host.reserved - 5 }
            causes := { u.causes with flags := u.causes.flags ||| 0x8002 } }
      (s.engine.state = .off → exec .trunkFaultRising s = .next faulted) ∧
      (s.engine.state ≠ .off → s.engine.txn = none → exec .trunkFaultRising s = .next (leave faulted)) ∧
      (s.engine.state ≠ .off → ∀ t, s.engine.txn = some t →
        exec .trunkFaultRising s = .next (leave
          (State.txnDone { t with lastOutcome := some .lineFault } .lineFault
            { faulted with engine := { faulted.engine with txn := none } }))) ∧
      (s.engine.state ≠ .off → ∀ t, s.engine.txn = some t → t.kind = .solicit →
        exec .trunkFaultRising s = .next (leave { faulted with engine := { faulted.engine with txn := none } }))) ∧
    (s.pins.fault = true → s.engine.dropDue = true → ∀ u, exec .faultDrop s = .next u →
      exec .trunkFaultFalling s = exec .trunkFaultFalling u) ∧
    (s.pins.fault = true → s.engine.dropDue = false →
      let fallen : State := { s with
        pins := { s.pins with fault := false }, engine := { s.engine with grace := .stopped } }
      exec .trunkFaultFalling s = .next (if s.engine.state = .held then fallen.inState .guarding else fallen))

/-- The fault drop, when the grace timer has made it due: BOUND and SUSPECT leases become LOST with
QUARANTINE_MIN and leave the ring, OFFERED leases are abandoned by their prior and RELEASING leases end with QUARANTINE_MIN,
the Offer List and the Release Queue empty, each graceful RETIRE is answered LINE_FAULT, and FAULT_DROP, bit 13, is set. The
model's choices: a drop not due changes nothing (log entry 4), and a drop due stands until it is taken (log entry 15); its
reading: the answer carries 0 attempts and a clear released mark (log entry 13). -/
def Obligations.FaultDropEndsUnheldLeases : Prop :=
  ∀ s : State, s.pins.rstLow = false →
    (s.engine.dropDue = false → exec .faultDrop s = .next s) ∧
    (s.engine.dropDue = true → s.MapMatches → s.RingMatches → s.ReleasesMatch →
      let changed (n : Slot) : Bool := isBound (s.lease n) || isOffered (s.lease n) || isReleasing (s.lease n)
      let answers : List Byte := (s.releases.map (fun e =>
        match e.reason with
        | .retire n tag => [11, 0x15, tag, 0x0B, byteOf n.val, byteOf (addressNumber e.address), 0, 0] ++
          (if s.params.quarantineMin = 0 then [0, 0, 0] else 1 :: natBytes s.params.quarantineMin)
        | _ => [])).flatten
      ∃ (slots : Vector (Option Lease) 64) (map : Vector AddrEntry 126) (changes : Vector (BitVec 3) 64),
        (∀ n : Slot, slots[n] = (s.lease n).bind (fun l =>
          match l.status with
          | .bound _ _ => some { l with status := .lost s.params.quarantineMin }
          | .suspect _ _ => some { l with status := .lost s.params.quarantineMin }
          | .offered .fresh => none
          | .offered .reserved => some { l with status := .reserved }
          | .offered .lost => some { l with status := .lost s.params.quarantineMin }
          | .releasing _ => none
          | _ => some l)) ∧
        (∀ a : Address, map[a] =
          match (s.entry a).holder.bind s.lease with
          | none => s.entry a
          | some l =>
            match l.status with
            | .releasing _ => quarantineEntry s.params.quarantineMin
            | .offered .fresh => quarantineEntry s.params.quarantineMin
            | _ => s.entry a) ∧
        (∀ n : Slot, changes[n] = if changed n then s.causes.changes[n] ||| 1 else s.causes.changes[n]) ∧
        exec .faultDrop s = .next (State.pollSettle { s with
          table := { slots := slots, map := map }
          enrol := { s.enrol with offers := [] }
          releases := []
          poll := { s.poll with
            ring := []
            pending := match s.poll.pending with
              | some ⟨n, false⟩ => if isBound (s.lease n) then none else s.poll.pending
              | p => p }
          engine := { s.engine with dropDue := false }
          host := { s.host with
            responses := s.host.responses ++ answers
            reserved := s.host.reserved - 11 * s.releases.countP Release.isLease }
          causes := { s.causes with
            changes := changes
            flags := s.causes.flags ||| 0x2000 ||| (if allSlots.any changed then 0x0004 else 0) |||
              (if s.releases.any Release.isLease then 0x0002 else 0) } }))

/-! ### The Trunk Engine -/

/-- The arbiter grants the first source of Table 3-6 that has work, after the relay-burst preference: offers, releases, relays,
the probe, the poll, the solicit. The granted transaction is captured whole and the Engine enters SEND; a relay whose lease is
not bound completes NOT_BOUND without the trunk and the arbiter looks again, in the same command (the model's reading, log entry 16).
That a GRANT without work changes nothing is the model's choice (log entry 4). -/
def Obligations.GrantFollowsTheGrantOrder : Prop :=
  ∀ s : State, s.pins.rstLow = false → s.engine.state = .idle →
    let txn (kind : TxnKind) (slot : Option Slot) (x : Option Identity) (a : TrunkAddress) (tag : Option Byte)
        (frame : List Byte) (e : Option Expected) (attempt most : Nat) : Txn :=
      { kind := kind, slot := slot, identity := x, address := a, tag := tag, frame := frame, expected := e
        attempt := attempt, maxAttempts := most, errorMap := 0, lastOutcome := none, reply := none }
    let burst := min (s.engine.burst + 1) 8
    let poll (n : Slot) (l : Lease) : State :=
      State.sending (txn .poll (some n) (some l.identity) (.station l.address) none
        (pollFrame l.address s.params.leaseTerm) (some ⟨.station l.address, .status, none⟩) 1 (1 + s.params.pollRetries)) 0
        { s with poll := { s.poll with pending := some ⟨n, true⟩ } }
    (∀ o os l, s.enrol.offers = o :: os → s.lease o.slot = some l →
      exec .grant s = .next (s.sending (txn .offer (some o.slot) (some l.identity) (.station l.address) none
        (offerFrame l.identity l.address s.params.leaseTerm)
        (some ⟨.station l.address, .accept, some l.identity⟩)
        (min (o.attempts + 1) (1 + s.params.offerRetries)) (1 + s.params.offerRetries)) 0)) ∧
    (s.enrol.offers = [] → ∀ e es, s.releases = e :: es →
      exec .grant s = .next (State.sending
        (txn .release
          (match e.reason with
           | .retire n _ => some n
           | _ => none)
          (match e.reason with
           | .retire n _ => (s.lease n).map (fun l => l.identity)
           | _ => none)
          (.station e.address)
          (match e.reason with
           | .retire _ tag => some tag
           | _ => none)
          (releaseFrame e.address) (some ⟨.station e.address, .released, none⟩) 1 (1 + s.params.releaseRetries)) 0
        { s with releases := { e with inFlight := true } :: es })) ∧
    (s.enrol.offers = [] → s.releases = [] →
      (∀ n l, s.params.relayBurst ≤ s.engine.burst → s.poll.pending = some ⟨n, false⟩ → s.lease n = some l →
        exec .grant s = .next (poll n l)) ∧
      (s.engine.burst < s.params.relayBurst ∨ (∀ n, s.poll.pending ≠ some ⟨n, false⟩) →
        (∀ e es, s.relays = e :: es →
          let granted : State := { s with relays := { e with inFlight := true } :: es }
          (e.target = .broadcast → exec .grant s = .next (granted.sending (txn .relay none none .broadcast (some e.tag)
            (relayFrame .broadcast e.payload) none 1 1) burst)) ∧
          (∀ n l, e.target = .slot n → s.lease n = some l → isBound (some l) = true →
            exec .grant s = .next (granted.sending (txn .relay (some n) (some l.identity) (.station l.address)
              (some e.tag) (relayFrame (.station l.address) e.payload)
              (if e.waitReply then some ⟨.station l.address, .relayed, none⟩ else none) 1
              (if e.waitReply then 1 + e.retries.getD s.params.relayRetries else 1)) burst)) ∧
          (∀ n, e.target = .slot n → isBound (s.lease n) = false →
            exec .grant s = exec .grant { s with
              relays := es
              host := { s.host with
                responses := s.host.responses ++ [6, 0x28, e.tag, 0x08, byteOf n.val, leaseCode (s.lease n)]
                reserved := s.host.reserved - 18 }
              causes := { s.causes with flags := s.causes.flags ||| 0x0002 } })) ∧
        (s.relays = [] →
          (∀ a, s.census.pending = some ⟨a, false⟩ →
            exec .grant s = .next (State.sending (txn .probe none none (.station a) none (probeFrame a)
              (some ⟨.station a, .answer, none⟩) 1 1) 0
              { s with census := { s.census with pending := some ⟨a, true⟩ } })) ∧
          ((∀ a, s.census.pending ≠ some ⟨a, false⟩) →
            (∀ n l, s.poll.pending = some ⟨n, false⟩ → s.lease n = some l → exec .grant s = .next (poll n l)) ∧
            ((∀ n, s.poll.pending ≠ some ⟨n, false⟩) →
              (s.enrol.solicitDue = true → exec .grant s = .next (State.sending (txn .solicit none none .newcomer none
                (solicitFrame s.enrol.solicitNumber) (some ⟨.newcomer, .join, none⟩) 1 1) 0
                { s with enrol := { s.enrol with
                  solicitDue := false, solicitNumber := s.enrol.solicitNumber + 1 } })) ∧
              (s.enrol.solicitDue = false → exec .grant s = .next s))))))

/-- TXEN is high exactly in SEND, TXD carries the frame's bits there and 1 elsewhere. A character is twelve bits with odd
parity; a frame the part builds is three characters and its payload, carries its
address, kind and length, and its data bytes sum to 0; the six downstream frames are those of Table 2-3. A bit time is 2n + 2 or
2n + 3 REFCLK periods, a character 12 bit times, a window REPLY_WAIT and the listen 56 of them; a bit is read n + 1 periods after
it began. -/
def Obligations.CharactersAndFramesFollowTheTables : Prop :=
  (TrunkAddress.broadcast.number = 0 ∧ TrunkAddress.newcomer.number = 127 ∧
    ∀ a : Address, (TrunkAddress.station a).number = addressNumber a ∧ addressNumber a = a.val + 1) ∧
  (∀ s : State, (s.txen = true ↔ s.engine.state = .send) ∧ (s.engine.state ≠ .send → s.txd = true) ∧
    (s.engine.state = .send → ∀ t, s.engine.txn = some t →
      s.txd = (frameBits t.frame).getD (s.engine.clock / s.params.bitTime) true)) ∧
  (∀ (a : Byte) (bytes : List Byte),
    frameBits (a :: bytes) = sentCharacter a true ++ (bytes.map (fun b => sentCharacter b false)).flatten) ∧
  (∀ (d : Byte) (f : Bool),
    (sentCharacter d f).length = 12 ∧ (sentCharacter d f)[0]? = some false ∧
    (∀ i, i < 8 → (sentCharacter d f)[i + 1]? = some (d.getLsbD i)) ∧ (sentCharacter d f)[9]? = some f ∧
    (sentCharacter d f)[11]? = some true ∧ ((sentCharacter d f).drop 1).dropLast.countP (fun b => b) % 2 = 1) ∧
  (∀ (d : Byte) (f p stop : Bool), ∃ parityError : Bool,
    receivedCharacter d f p stop = ⟨d, f, parityError, !stop⟩ ∧
    (parityError = true ↔ ((List.range 8).map (fun i => d.getLsbD i) ++ [f, p]).countP (fun b => b) % 2 = 0)) ∧
  (∀ (a : TrunkAddress) (kind : Nat) (payload : List Byte),
    (buildFrame a kind payload).length = payload.length + 3 ∧
    ∃ check : Byte, buildFrame a kind payload =
      byteOf a.number :: byteOf (16 * kind + payload.length) :: payload ++ [check] ∧
      (buildFrame a kind payload).foldl (· + ·) 0 = 0) ∧
  (∀ (a : Address) (x : Identity) (term : Nat) (number : Byte) (dest : TrunkAddress) (payload : List Byte),
    pollFrame a term = buildFrame (.station a) 1 [byteOf term] ∧ solicitFrame number = buildFrame .newcomer 2 [number] ∧
    offerFrame x a term = buildFrame .newcomer 3 (identityBytes x ++ [byteOf (addressNumber a), byteOf term]) ∧
    releaseFrame a = buildFrame (.station a) 4 [] ∧ probeFrame a = buildFrame (.station a) 5 [] ∧
    relayFrame dest payload = buildFrame dest 6 payload) ∧
  (∀ p : Params,
    (p.oddStep = 0 → p.bitTime = 2 * p.bitDivider + 2) ∧ (p.oddStep = 1 → p.bitTime = 2 * p.bitDivider + 3) ∧
    p.charTime = 12 * p.bitTime ∧ p.windowTime = p.replyWait * p.charTime ∧ p.listenTime = 56 * p.charTime ∧
    p.judgeTime = p.bitDivider + 1 ∧ p.readTime = 11 * p.bitTime + p.bitDivider + 1)

/-- A reply is GOOD exactly when it is whole, without errors, sums to 0 and has the expected source, kind, length and identity;
otherwise its reason is the first check of Table 2-7 that fails. A reply that ended before its kind character is SHORT unless its
one character carries an error. Reception is complete at character 2 + L, or at character 10 with a length nibble of 9 to 15; the
upstream kinds have the codes, the lengths and the payload fields of Table 2-4. -/
def Obligations.JudgementGivesTheFirstFailedCheck : Prop :=
  (receptionComplete [] = false ∧ ∀ a : RxChar, receptionComplete [a] = false) ∧
  (∀ (a k : RxChar) (more : List RxChar),
    let len := k.data.toNat % 16
    (len ≤ 8 → (receptionComplete (a :: k :: more) = true ↔ (a :: k :: more).length = 3 + len)) ∧
    (9 ≤ len → (receptionComplete (a :: k :: more) = true ↔ (a :: k :: more).length = 11))) ∧
  [UpstreamKind.status, .join, .accept, .answer, .relayed, .released].map UpstreamKind.code = [9, 10, 11, 12, 13, 14] ∧
  (∀ len : Nat,
    [UpstreamKind.status, .join, .accept, .answer, .relayed, .released].map (fun k => k.admits len) =
      [decide (len = 2), decide (len = 8), decide (len = 6), decide (len = 8), decide (len ≤ 8), decide (len = 0)]) ∧
  (∀ (a k c : RxChar) (payload : List RxChar),
    framePayload (a :: k :: payload ++ [c]) = payload.map (fun x => x.data)) ∧
  (∀ (b0 b1 b2 b3 b4 b5 cls hint : Byte) (rest : List Byte),
    payloadIdentity (b0 :: b1 :: b2 :: b3 :: b4 :: b5 :: rest) = b5 ++ b4 ++ b3 ++ b2 ++ b1 ++ b0 ∧
    joinOf [b0, b1, b2, b3, b4, b5, cls, hint] = ⟨b5 ++ b4 ++ b3 ++ b2 ++ b1 ++ b0, cls, hint⟩) ∧
  (∀ (a : RxChar) (e : Expected),
    (a.parityError = true → judgeFrame [a] true e = some .parity) ∧
    (a.parityError = false → a.framingError = true → judgeFrame [a] true e = some .framing) ∧
    (a.parityError = false → a.framingError = false → judgeFrame [a] true e = some .short)) ∧
  ∀ (a k : RxChar) (more : List RxChar) (short : Bool) (e : Expected),
    let chars := a :: k :: more
    let len := k.data.toNat % 16
    (judgeFrame chars short e = some .parity ↔ ∃ c ∈ chars, c.parityError = true) ∧
    (judgeFrame chars short e = some .framing ↔
      (∀ c ∈ chars, c.parityError = false) ∧ ∃ c ∈ chars, c.framingError = true) ∧
    ((∀ c ∈ chars, c.parityError = false ∧ c.framingError = false) →
      (9 ≤ len → judgeFrame chars short e = some .length) ∧
      (len ≤ 8 → short = true → judgeFrame chars short e = some .short) ∧
      (len ≤ 8 → short = false →
        let sum : Byte := chars.foldl (fun n c => n + c.data) 0
        let source := a.flag = true ∧ a.data.toNat = 128 + e.source.number
        let payload := more.dropLast.map (fun c => c.data)
        let kind := k.data.toNat / 16 = e.kind.code ∧ e.kind.admits len = true ∧
          ∀ x ∈ e.identity, payloadIdentity payload = x
        (sum ≠ 0 → judgeFrame chars short e = some .check) ∧
        (sum = 0 → ¬source → judgeFrame chars short e = some .wrongSource) ∧
        (sum = 0 → source → ¬kind → judgeFrame chars short e = some .wrongKind) ∧
        (sum = 0 → source → kind → judgeFrame chars short e = none)))

/-- The end of an attempt that no fault cuts: its outcome becomes the last outcome, a POLL or a relay to a lease is counted in
the quality window, and the Engine enters GUARD, which begins at the time the attempt ended; after GOOD or the last attempt the
outcome goes to the owner, otherwise the transaction goes on and a failed OFFER attempt is counted in its entry. FRAME_SENT, the
two reply timeouts and GUARD_END move the Engine by Table 3-2; each is taken as saying that its time has come (the model's
choice, log entry 5). -/
def Obligations.AttemptsEndInAGuard : Prop :=
  ∀ s : State, s.pins.rstLow = false →
    (∀ t, s.engine.txn = some t →
      (∀ (ended : Nat) (o : AttemptOutcome) (payload : Option (List Byte)), o ≠ .lineFault →
        let r : Txn := { t with
          lastOutcome := some o
          reply := match payload with
            | some p => some p
            | none => t.reply }
        let bad : Bool := decide (o ≠ .good)
        let counted : State := match t.slot, t.identity with
          | some n, some x => if t.kind = .poll ∨ t.kind = .relay then s.countAttempt n x t.address bad else s
          | _, _ => s
        let u := counted.inGuard ended
        (o = .good ∨ t.maxAttempts ≤ t.attempt →
          s.endAttempt ended o payload = State.txnDone r o { u with engine := { u.engine with txn := none } }) ∧
        (o ≠ .good → t.attempt < t.maxAttempts →
          s.endAttempt ended o payload = { u with
            engine := { u.engine with txn := some r }
            enrol := { u.enrol with offers := u.enrol.offers.map (fun e =>
              if t.kind = .offer ∧ t.slot = some e.slot then { e with attempts := e.attempts + 1 } else e) } })) ∧
      (s.engine.state = .send → t.expected.isSome = true → exec .frameSent s = .next (s.inState .listen)) ∧
      (s.engine.state = .send → t.expected = none →
        let ended := t.frame.length * s.params.charTime
        exec .frameSent s = .next ((s.atTime ended).endAttempt ended .good none)) ∧
      (s.engine.state = .listen → t.kind ≠ .solicit →
        let ended := s.params.replyWait * s.params.charTime
        exec .replyWindowTimeout s = .next ((s.atTime ended).endAttempt ended .noReply none)) ∧
      (s.engine.state = .receive → s.engine.reception.charBegan = none → t.kind ≠ .solicit →
        ∀ e, t.expected = some e →
        let ended := s.engine.reception.idleFrom + s.params.charTime
        exec .replyIdleTimeout s = .next (
          match judgeFrame s.engine.reception.chars true e with
          | some r => (s.atTime ended).endAttempt ended (.garbled r) none
          | none => (s.atTime ended).endAttempt ended .good (some (framePayload s.engine.reception.chars)))) ∧
      (s.engine.state = .guarding →
        let u := s.inState .send
        exec .guardEnd s = .next { u with
          engine := { u.engine with txn := some { t with attempt := t.attempt + 1, errorMap := 0 } } })) ∧
    (s.engine.txn = none → s.engine.state = .guarding →
      (s.engine.pendingDisable = none → exec .guardEnd s = .next (s.inState .idle)) ∧
      (∀ tag, s.engine.pendingDisable = some tag →
        let u := s.inState .off
        exec .guardEnd s = .next { u with
          engine := { u.engine with pendingDisable := none }
          host := { s.host with
            responses := s.host.responses ++ [5, 0x05, tag, 0x00, 0], reserved := s.host.reserved - 5 }
          causes := { s.causes with flags := s.causes.flags ||| 0x8002 } }))

/-- Reception of a reply: a fall that reads 1 is noise, and outside LISTEN and RECEIVE nothing is heard. A start bit within the
window begins the reply, one after it finds the window ended; one more than a character time after the last stop bit finds the
frame ended. A character is gathered with its error bit, ends a whole frame, or with flag 1 ends it short as that character begins.
The model's choices: a START_BIT that comes late finds its wait ended and one that comes early counts from the reading of the last
stop bit (log entry 11), and a character that no START_BIT announced begins back to back (log entry 7); its readings: a whole
frame ends at the end of its last stop bit (log entry 12), and idle counts from there after a framing error too (log entry
24). -/
def Obligations.RepliesAreGatheredCharacterByCharacter : Prop :=
  ∀ s : State, s.pins.rstLow = false →
    (∀ began, exec (.startBit began true) s = .next s) ∧
    (s.engine.state ≠ .listen → s.engine.state ≠ .receive →
      (∀ began, exec (.startBit began false) s = .next s) ∧
      ∀ d f p stop, exec (.characterReceived d f p stop) s = .next s) ∧
    (s.engine.state = .listen ∨ s.engine.state = .receive → s.engine.reception.charBegan = none → ∀ d f p stop u,
      exec (.startBit (max s.engine.reception.idleFrom (s.engine.clock - s.params.readTime)) false) s = .next u →
      exec (.characterReceived d f p stop) s = exec (.characterReceived d f p stop) u) ∧
    (∀ t e, s.engine.txn = some t → t.kind ≠ .solicit → t.expected = some e →
      let r := s.engine.reception
      (r.charBegan = none → ∀ given,
        let began := max given (r.idleFrom - (s.params.bitTime - (s.params.bitDivider + 1)))
        let judged := began + (s.params.bitDivider + 1)
        (s.engine.state = .listen → began ≤ s.params.windowTime →
          exec (.startBit given false) s = .next { s with engine := { s.engine with
            state := .receive
            clock := max s.engine.clock judged
            reception := { r with charBegan := some began, chars := [], frameBegan := began } } }) ∧
        (s.engine.state = .listen → s.params.windowTime < began →
          exec (.startBit given false) s = exec .replyWindowTimeout s) ∧
        (s.engine.state = .receive → began ≤ r.idleFrom + s.params.charTime →
          exec (.startBit given false) s = .next { s with engine := { s.engine with
            clock := max s.engine.clock judged
            reception := { r with charBegan := some began } } }) ∧
        (s.engine.state = .receive → r.idleFrom + s.params.charTime < began →
          exec (.startBit given false) s = exec .replyIdleTimeout s)) ∧
      (∀ began, s.engine.state = .receive → r.charBegan = some began → ∀ d f p stop,
        let c := receivedCharacter d f p stop
        let stopEnd := began + s.params.charTime
        let heard (chars : List RxChar) (map : BitVec 11) : State := { s with engine := { s.engine with
          clock := max s.engine.clock (began + s.params.readTime)
          txn := some { t with errorMap := map }
          reception := { r with charBegan := none, idleFrom := stopEnd, chars := chars } } }
        let map := if c.parityError || c.framingError then t.errorMap ||| BitVec.twoPow 11 r.chars.length else t.errorMap
        (f = true → r.chars ≠ [] →
          exec (.characterReceived d f p stop) s = .next (
            match judgeFrame r.chars true e with
            | some g => (heard r.chars t.errorMap).endAttempt began (.garbled g) none
            | none => (heard r.chars t.errorMap).endAttempt began .good (some (framePayload r.chars)))) ∧
        (f = false ∨ r.chars = [] → receptionComplete (r.chars ++ [c]) = false →
          exec (.characterReceived d f p stop) s = .next (heard (r.chars ++ [c]) map)) ∧
        (f = false ∨ r.chars = [] → receptionComplete (r.chars ++ [c]) = true →
          exec (.characterReceived d f p stop) s = .next (
            match judgeFrame (r.chars ++ [c]) false e with
            | some g => (heard (r.chars ++ [c]) map).endAttempt stopEnd (.garbled g) none
            | none => (heard (r.chars ++ [c]) map).endAttempt stopEnd .good (some (framePayload (r.chars ++ [c])))))))

/-- The solicit listen: a start bit before 56 character times begins a frame, one at or after it ends the listen; each frame is
judged and kept for the sub-slot of 14 character times in which it began; a flag-1 character ends a frame short and begins a
new one; a frame that ends at or after 56 character times ends the listen with it. The model's choices: a START_BIT that comes late
finds its frame or the listen ended, one that comes early counts from the reading of the last stop bit (log entry 11); its
reading: a whole frame ends at the end of its last stop bit, the time that is held to 56 character times (log entry 12).
REPLY_IDLE_TIMEOUT is taken as saying that its time has come, whatever the count (the model's choice, log entry 5). -/
def Obligations.SolicitListenKeepsFramesBySubSlot : Prop :=
  ∀ (s : State) (t : Txn), s.pins.rstLow = false → s.engine.txn = some t → t.kind = .solicit →
    let r := s.engine.reception
    let slotTime := 14 * s.params.charTime
    let kept (frame : List RxChar) (short : Bool) (k : Fin 4) : Vector SubSlot 4 :=
      r.subSlots.set k
        (match judgeFrame frame short ⟨.newcomer, .join, none⟩ with
         | none => ⟨r.subSlots[k].frames + 1, r.subSlots[k].failed, some (joinOf (framePayload frame))⟩
         | some _ => { r.subSlots[k] with frames := r.subSlots[k].frames + 1, failed := true })
    (r.charBegan = none → ∀ given,
      let began := max given (r.idleFrom - (s.params.bitTime - (s.params.bitDivider + 1)))
      let judged := began + (s.params.bitDivider + 1)
      (s.engine.state = .listen → began < 56 * s.params.charTime →
        exec (.startBit given false) s = .next { s with engine := { s.engine with
          state := .receive
          clock := max s.engine.clock judged
          reception := { r with charBegan := some began, chars := [], frameBegan := began } } }) ∧
      (s.engine.state = .listen → 56 * s.params.charTime ≤ began →
        exec (.startBit given false) s = exec .solicitListenEnd s) ∧
      (s.engine.state = .receive → began ≤ r.idleFrom + s.params.charTime →
        exec (.startBit given false) s = .next { s with engine := { s.engine with
          clock := max s.engine.clock judged
          reception := { r with charBegan := some began } } }) ∧
      (s.engine.state = .receive → r.idleFrom + s.params.charTime < began → ∀ u,
        exec .replyIdleTimeout s = .next u → exec (.startBit given false) s = exec (.startBit given false) u)) ∧
    (s.engine.state = .receive → ∀ k : Fin 4, k.val * slotTime ≤ r.frameBegan →
      r.frameBegan < (k.val + 1) * slotTime →
      (let ended := r.idleFrom + s.params.charTime
       let idle (state : EngineState) : State := { s with engine := { s.engine with
         state := state
         clock := max s.engine.clock ended
         reception := { r with chars := [], subSlots := kept r.chars true k } } }
       (r.charBegan = none → ended < 56 * s.params.charTime → exec .replyIdleTimeout s = .next (idle .listen)) ∧
       (r.charBegan = none → 56 * s.params.charTime ≤ ended →
         exec .replyIdleTimeout s = .next ((idle .receive).endListen ended))) ∧
      (∀ began, r.charBegan = some began → ∀ d f p stop,
        let c := receivedCharacter d f p stop
        let stopEnd := began + s.params.charTime
        let heard (state : EngineState) (chars : List RxChar) (frameBegan : Nat) (subSlots : Vector SubSlot 4) : State :=
          { s with engine := { s.engine with
            state := state
            clock := max s.engine.clock (began + s.params.readTime)
            reception := {
              chars := chars, charBegan := none, frameBegan := frameBegan, idleFrom := stopEnd, subSlots := subSlots } } }
        (f = true → r.chars ≠ [] → began < 56 * s.params.charTime →
          exec (.characterReceived d f p stop) s = .next (heard .receive [c] began (kept r.chars true k))) ∧
        (f = true → r.chars ≠ [] → 56 * s.params.charTime ≤ began →
          exec (.characterReceived d f p stop) s =
            .next ((heard .receive [] r.frameBegan (kept r.chars true k)).endListen began)) ∧
        (f = false ∨ r.chars = [] → receptionComplete (r.chars ++ [c]) = false →
          exec (.characterReceived d f p stop) s = .next (heard .receive (r.chars ++ [c]) r.frameBegan r.subSlots)) ∧
        (f = false ∨ r.chars = [] → receptionComplete (r.chars ++ [c]) = true → stopEnd < 56 * s.params.charTime →
          exec (.characterReceived d f p stop) s =
            .next (heard .listen [] r.frameBegan (kept (r.chars ++ [c]) false k))) ∧
        (f = false ∨ r.chars = [] → receptionComplete (r.chars ++ [c]) = true → 56 * s.params.charTime ≤ stopEnd →
          exec (.characterReceived d f p stop) s =
            .next ((heard .receive [] r.frameBegan (kept (r.chars ++ [c]) false k)).endListen stopEnd))))

/-- The listen's end: the SOLICIT ends GOOD in GUARD, which begins at the time the listen ended, each COLLIDED sub-slot adds to
the collision count, and outside CLOSED the results are evaluated in sub-slot order, a JOIN whose identity an earlier JOIN of the
same solicit had being ignored. SOLICIT_LISTEN_END is taken as saying that its time has come, whatever the count (the model's
choice, log entry 5). -/
def Obligations.SolicitResultsAreEvaluatedInOrder : Prop :=
  ∀ s : State,
    (s.pins.rstLow = false → s.engine.state = .listen → ∀ t, s.engine.txn = some t → t.kind = .solicit →
      let ended := 56 * s.params.charTime
      exec .solicitListenEnd s = .next ((s.atTime ended).endListen ended)) ∧
    (∀ at_ : Nat,
      let result (b : SubSlot) : SubSlotResult :=
        match b.frames, b.failed, b.join with
        | 0, _, _ => .empty
        | 1, false, some j => .join j
        | _, _, _ => .collided
      let results := s.engine.reception.subSlots.toList.map result
      let u := s.inGuard at_
      let ended : State := { u with engine := { u.engine with
        txn := none
        collisions := s.engine.collisions + BitVec.ofNat 16 (results.countP (fun r => decide (r = .collided))) } }
      (s.enrol.mode = .closed → s.endListen at_ = ended) ∧
      (s.enrol.mode ≠ .closed → s.endListen at_ = ended.takeResults [] results)) ∧
    (∀ seen, s.takeResults seen [] = s) ∧
    (∀ seen rest, s.takeResults seen (.empty :: rest) = s.takeResults seen rest ∧
      s.takeResults seen (.collided :: rest) = s.takeResults seen rest) ∧
    (∀ seen rest (j : Join), s.takeResults seen (.join j :: rest) =
      if j.identity ∈ seen then s.takeResults seen rest else (s.takeJoin j).takeResults (j.identity :: seen) rest)

/-- A JOIN is classified by Table 4-2: a known identity rejoins at its own address with its prior, a RELEASING one is ignored,
and an unknown one passes admission, slot and address, where the hint is taken when it is FREE and otherwise the lowest FREE
address. -/
def Obligations.JoinsAreClassifiedByIdentity : Prop :=
  ∀ (s : State) (j : Join), s.IdentitiesUnique → s.enrol.mode ≠ .closed →
    (∀ n l, s.lease n = some l → l.identity = j.identity →
      let rejoined (prior : Prior) : State :=
        let u := (s.putLease n (some { l with status := .offered prior, cls := some j.cls })).handOver n .state
        { u with enrol := { u.enrol with offers := u.enrol.offers ++ [⟨n, 0⟩] } }
      (∀ term, l.status = .releasing term → s.takeJoin j = s) ∧
      (l.status = .reserved → s.takeJoin j = rejoined .reserved) ∧
      (∀ q, l.status = .lost q → s.takeJoin j = rejoined .lost) ∧
      (isBound (some l) = true → s.takeJoin j = State.pollSettle { rejoined .lost with
        poll := { s.poll with
          ring := s.poll.ring.filter (fun m => m.slot ≠ n)
          pending := if s.poll.pending = some ⟨n, false⟩ then none else s.poll.pending } })) ∧
    ((∀ n : Slot, ∀ l ∈ s.lease n, l.identity ≠ j.identity) →
      let set (bits : Half) : State := { s with causes := { s.causes with flags := s.causes.flags ||| bits } }
      let admitted := s.enrol.mode = .opened ∨ (s.enrol.mode = .listed ∧ j.identity ∈ s.enrol.admission)
      (¬admitted → s.takeJoin j = set 0x0400) ∧
      (admitted → (∀ n : Slot, s.lease n ≠ none) → s.takeJoin j = set 0x0100) ∧
      (admitted → (∃ n : Slot, s.lease n = none) → (∀ a : Address, s.entry a ≠ .free) → s.takeJoin j = set 0x0200) ∧
      (admitted → ∀ n : Slot, s.lease n = none → (∀ m : Slot, m < n → s.lease m ≠ none) →
        ∀ a : Address, s.entry a = .free →
          (j.hint.toNat = addressNumber a ∨
            ((∀ h : Address, j.hint.toNat = addressNumber h → s.entry h ≠ .free) ∧
              ∀ b : Address, b < a → s.entry b ≠ .free)) →
          s.takeJoin j =
            let u := ((s.putLease n (some {
              status := .offered .fresh, identity := j.identity, address := a, cls := some j.cls, origin := .joined
              cadence := 1, cadenceCount := 1, lastStatus := none, label := none, windowAttempts := 0, windowBad := 0
              lastWindowBad := none, windowsClosed := 0, poor := false })).putEntry a (.held n)).handOver n .state
            { u with enrol := { u.enrol with offers := u.enrol.offers ++ [⟨n, 0⟩] } }))

/-! ### What the owners do with an outcome -/

/-- An OFFER's outcome, when its lease is still OFFERED as captured: GOOD binds it with a full term and appends it to the ring,
NO_REPLY and GARBLED abandon it by its prior, LINE_FAULT leaves it standing; otherwise the outcome is dropped. -/
def Obligations.OfferOutcomeBindsOrAbandons : Prop :=
  ∀ (s : State) (t : Txn) (n : Slot) (x : Identity) (o : AttemptOutcome),
    t.kind = .offer → t.slot = some n → t.identity = some x →
    let full := s.params.leaseTerm * 4
    let unlisted (u : State) : State :=
      { u with enrol := { u.enrol with offers := u.enrol.offers.filter (fun e => e.slot ≠ n) } }
    let failed := o = .noReply ∨ ∃ r, o = .garbled r
    (∀ l prior, s.lease n = some l → l.identity = x → .station l.address = t.address → l.status = .offered prior →
      (o = .good →
        let u := unlisted ((s.putLease n (some { l with
          status := .bound full 0, cadenceCount := 1, lastStatus := none })).handOver n .state)
        let v : State := { u with poll := { s.poll with ring := s.poll.ring ++ [⟨n, false⟩] } }
        s.txnDone t o = if s.poll.mode = .continuous ∧ s.poll.state = .wait then v.beginRound else v) ∧
      (failed → prior = .fresh → s.txnDone t o = unlisted (((s.putLease n none).putEntry l.address
        (quarantineEntry (full + s.params.quarantineMin))).handOver n .state)) ∧
      (failed → prior = .reserved → s.txnDone t o =
        unlisted ((s.putLease n (some { l with status := .reserved })).handOver n .state)) ∧
      (failed → prior = .lost → s.txnDone t o =
        unlisted ((s.putLease n (some { l with status := .lost (full + s.params.quarantineMin) })).handOver n .state)) ∧
      (o = .lineFault → s.txnDone t o = s)) ∧
    ((∀ l ∈ s.lease n, l.identity ≠ x ∨ .station l.address ≠ t.address ∨ isOffered (some l) = false) → s.txnDone t o = s)

/-- A POLL's outcome, when its lease is still BOUND or SUSPECT as captured: GOOD renews the term and stores the status word,
NO_REPLY and GARBLED count a miss toward SUSPECT_AFTER and LOST_AFTER, LINE_FAULT changes nothing. The pending poll in flight is
cleared and its member marked, or the detached poll ends, and the walk goes on. -/
def Obligations.PollOutcomeRenewsOrCountsAMiss : Prop :=
  ∀ (s : State) (t : Txn) (n : Slot) (x : Identity) (o : AttemptOutcome),
    t.kind = .poll → t.slot = some n → t.identity = some x →
    let taken (u : State) : State := State.pollSettle (
      match u.poll.pending with
      | some ⟨_, true⟩ => { u with poll := { u.poll with
          pending := none
          ring := u.poll.ring.map (fun m => if m.slot = n then { m with visited := true } else m) } }
      | _ => { u with poll := { u.poll with detached := none } })
    let failed := o = .noReply ∨ ∃ r, o = .garbled r
    (∀ l term miss, s.lease n = some l → l.identity = x → .station l.address = t.address →
      l.status = .bound term miss ∨ l.status = .suspect term miss →
      (o = .good → ∀ lo hi, t.reply = some [lo, hi] →
        let word : Half := hi ++ lo
        let u := s.putLease n (some { l with status := .bound (s.params.leaseTerm * 4) 0, lastStatus := some word })
        let v := if l.lastStatus = some word then u else u.handOver n .status
        s.txnDone t o = taken (if l.status = .suspect term miss then v.handOver n .state else v)) ∧
      (failed → s.params.lostAfter ≤ miss + 1 →
        let u := (s.putLease n (some { l with status := .lost (term + s.params.quarantineMin) })).handOver n .state
        s.txnDone t o = taken { u with poll := { s.poll with
          ring := s.poll.ring.filter (fun m => m.slot ≠ n)
          pending := if s.poll.pending = some ⟨n, false⟩ then none else s.poll.pending } }) ∧
      (failed → miss + 1 < s.params.lostAfter → l.status = .bound term miss → s.params.suspectAfter ≤ miss + 1 →
        s.txnDone t o = taken ((s.putLease n (some { l with status := .suspect term (miss + 1) })).handOver n .state)) ∧
      (failed → miss + 1 < s.params.lostAfter → l.status = .bound term miss → miss + 1 < s.params.suspectAfter →
        s.txnDone t o = taken (s.putLease n (some { l with status := .bound term (miss + 1) }))) ∧
      (failed → miss + 1 < s.params.lostAfter → l.status = .suspect term miss →
        s.txnDone t o = taken (s.putLease n (some { l with status := .suspect term (miss + 1) }))) ∧
      (o = .lineFault → s.txnDone t o = taken s)) ∧
    ((∀ l ∈ s.lease n, l.identity ≠ x ∨ .station l.address ≠ t.address ∨ isBound (some l) = false) →
      s.txnDone t o = taken s)

/-- A RELEASE's outcome removes the head of the Release Queue; a lease entry frees its RELEASING lease, its address withheld for
QUARANTINE_MIN after the frozen term unless RELEASED was received, and answers the graceful RETIRE. A relay's outcome removes
the head of the Relay Queue and answers it by Table 7-7. That a RETIRE answered LINE_FAULT counts the cut attempt is the model's
reading (log entry 13), and that a relay answered LINE_FAULT carries reason 0 its choice (log entry 31). The GARBLED reasons have
the codes of Table 9-7. -/
def Obligations.ReleaseAndRelayOutcomesAnswerTheHost : Prop :=
  [Garble.parity, .framing, .length, .short, .check, .wrongSource, .wrongKind].map Garble.code = [1, 2, 3, 4, 5, 6, 7] ∧
  ∀ (s : State) (t : Txn) (o : AttemptOutcome),
    (t.kind = .release → ∀ e es, s.releases = e :: es →
      (∀ n tag, e.reason = .retire n tag → t.slot = some n →
        ∀ l term, s.lease n = some l → t.identity = some l.identity → t.address = .station l.address →
          e.address = l.address → l.status = .releasing term →
          let q := if o = .good then s.params.quarantineMin else term + s.params.quarantineMin
          let u := (({ s with releases := es } : State).putLease n none).putEntry l.address (quarantineEntry q)
          let v := (u.handOver n .state).replied ([11, 0x15, tag, if o = .lineFault then 0x0B else 0x00, byteOf n.val,
            byteOf (addressNumber l.address), if o = .good then 1 else 0, byteOf t.attempt] ++
            (if q = 0 then [0, 0, 0] else 1 :: natBytes q))
          s.txnDone t o = { v with host := { v.host with reserved := s.host.reserved - 11 } }) ∧
      ((∀ n tag, e.reason ≠ .retire n tag) → s.txnDone t o = { s with releases := es })) ∧
    (t.kind = .relay → ∀ e es, s.relays = e :: es →
      let payload := if o = .good then t.reply.getD [] else []
      let v := ({ s with relays := es } : State).replied ([byteOf (10 + payload.length), 0x28, e.tag,
        (match o with
         | .good => 0x00
         | .noReply => 0x09
         | .garbled _ => 0x0A
         | .lineFault => 0x0B),
        byteOf t.address.number, byteOf t.attempt,
        (match o with
         | .garbled r => r.code
         | _ => 0)] ++ halfBytes (t.errorMap.setWidth 16) ++ [byteOf payload.length] ++ payload)
      s.txnDone t o = { v with host := { v.host with reserved := s.host.reserved - 18 } })

/-- A PROBE's outcome is judged against the table by R136 and Table 6-1, and then the current probe is cleared and the walk goes
on, or the detached probe ends. That after the probe of `last` the cursor shows `first` and a mark stands beyond is the model's
choice (log entry 8). -/
def Obligations.ProbeOutcomeFollowsTheAnswerTable : Prop :=
  ∀ (s : State) (t : Txn) (a : Address) (o : AttemptOutcome), t.kind = .probe → t.address = .station a →
    s.IdentitiesUnique →
    let after (u : State) : State :=
      match u.census.pending with
      | some ⟨_, true⟩ =>
        let v : State := { u with census := { u.census with
          pending := none
          cursor := if u.census.cursor = u.census.last then u.census.first else u.census.cursor + 1
          beyond := decide (u.census.cursor = u.census.last) } }
        if v.census.mode = .stepped ∧ v.census.stepPending = false then
          { v with census := { v.census with state := .waitStep } }
        else if v.census.mode = .stepped then State.censusWalk { v with census := { v.census with stepPending := false } }
        else v.censusWalk
      | _ => { u with census := { u.census with detached := none } }
    let withheld (q : Nat) : State := s.putEntry a (
      match s.entry a with
      | .free => quarantineEntry q
      | .quarantined m => .quarantined (max m q)
      | .held n => .held n)
    let release (reason : ReleaseReason) (bits : Half) : State := { withheld s.params.quarantineMin with
      releases := if s.releases.any (fun e => e.address == a) ∨ 16 ≤ s.releases.length then s.releases
        else s.releases ++ [⟨a, reason, false⟩]
      causes := { s.causes with flags := s.causes.flags ||| bits } }
    let joined (u : State) (n : Slot) : State :=
      let v : State := { u with
        census := { u.census with adopted := u.census.adopted + 1 }
        poll := { u.poll with ring := u.poll.ring ++ [⟨n, false⟩] } }
      if v.poll.mode = .continuous ∧ v.poll.state = .wait then v.beginRound else v
    (o = .lineFault ∨ o = .noReply → s.txnDone t o = after s) ∧
    (∀ r, o = .garbled r → s.txnDone t o = after (release .clash 0x0040)) ∧
    (o = .good → ∀ b0 b1 b2 b3 b4 b5 cls units, t.reply = some [b0, b1, b2, b3, b4, b5, cls, units] →
      let x : Identity := b5 ++ b4 ++ b3 ++ b2 ++ b1 ++ b0
      let rebound (l : Lease) : Lease := { l with
        status := .bound (4 * units.toNat) 0, address := a, cls := some cls, origin := .adopted, cadenceCount := 1
        lastStatus := none }
      (units = 0 → s.txnDone t o = after s) ∧
      (units ≠ 0 → ∀ n l, s.lease n = some l → l.identity = x →
        (l.address = a → (∀ q, l.status ≠ .lost q) → s.txnDone t o = after s) ∧
        (l.address = a → ∀ q, l.status = .lost q →
          s.txnDone t o = after (joined ((s.putLease n (some (rebound l))).handOver n .state) n)) ∧
        (l.address ≠ a → l.status = .reserved → s.txnDone t o = after (release .redirect 0)) ∧
        (l.address ≠ a → l.status ≠ .reserved → (∀ q, l.status ≠ .lost q) →
          s.txnDone t o = after (release .conflict 0x0080)) ∧
        (l.address ≠ a → ∀ q m, l.status = .lost q → s.entry a = .held m →
          s.txnDone t o = after (release .conflict 0x0080)) ∧
        (l.address ≠ a → ∀ q, l.status = .lost q → (∀ m, s.entry a ≠ .held m) →
          s.txnDone t o = after (joined ((((s.putEntry l.address (quarantineEntry q)).putEntry a (.held n)).putLease n
            (some (rebound l))).handOver n .state) n))) ∧
      (units ≠ 0 → (∀ n : Slot, ∀ l ∈ s.lease n, l.identity ≠ x) →
        (∀ m, s.entry a = .held m → s.txnDone t o = after (release .conflict 0x0080)) ∧
        ((∀ m, s.entry a ≠ .held m) → ∀ n : Slot, s.lease n = none → (∀ m : Slot, m < n → s.lease m ≠ none) →
          s.txnDone t o = after (joined (((s.putLease n (some {
            status := .bound (4 * units.toNat) 0, identity := x, address := a, cls := some cls, origin := .adopted
            cadence := 1, cadenceCount := 1, lastStatus := none, label := none, windowAttempts := 0, windowBad := 0
            lastWindowBad := none, windowsClosed := 0, poor := false })).putEntry a (.held n)).handOver n .state) n)) ∧
        ((∀ m, s.entry a ≠ .held m) → (∀ n : Slot, s.lease n ≠ none) →
          let u := withheld (4 * units.toNat + s.params.quarantineMin)
          s.txnDone t o = after { u with causes := { s.causes with flags := s.causes.flags ||| 0x0100 } })))

/-- A counted attempt raises the window's counts of the lease that still holds the captured identity and address; the window
closes at WINDOW_SIZE attempts and decides poor by QUALITY_LIMIT; a changed poor is handed over with QUALITY, and becoming poor
sets POOR_LINE, bit 11. -/
def Obligations.QualityWindowCountsAndCloses : Prop :=
  ∀ (s : State) (n : Slot) (x : Identity) (a : TrunkAddress) (bad : Bool),
    ((∀ l ∈ s.lease n, l.identity ≠ x ∨ .station l.address ≠ a) → s.countAttempt n x a bad = s) ∧
    (∀ l, s.lease n = some l → l.identity = x → .station l.address = a →
      let bads := l.windowBad + (if bad then 1 else 0)
      let poor := decide (s.params.qualityLimit ≠ 0 ∧ s.params.qualityLimit < bads)
      let closed : State := s.putLease n (some { l with
        windowAttempts := 0, windowBad := 0, lastWindowBad := some bads, windowsClosed := l.windowsClosed + 1, poor := poor })
      (l.windowAttempts + 1 ≠ s.params.windowSize →
        s.countAttempt n x a bad =
          s.putLease n (some { l with windowAttempts := l.windowAttempts + 1, windowBad := bads })) ∧
      (l.windowAttempts + 1 = s.params.windowSize → poor = l.poor → s.countAttempt n x a bad = closed) ∧
      (l.windowAttempts + 1 = s.params.windowSize → poor = false → l.poor = true →
        s.countAttempt n x a bad = closed.handOver n .quality) ∧
      (l.windowAttempts + 1 = s.params.windowSize → poor = true → l.poor = false →
        s.countAttempt n x a bad =
          let u := closed.handOver n .quality
          { u with causes := { u.causes with flags := u.causes.flags ||| 0x0800 } }))

/-! ### What every step keeps -/

/-- Every step keeps: an address is HELD by a slot if and only if that slot's lease carries it. -/
def Obligations.EveryStepKeepsTheAddressMap : Prop :=
  ∀ s t : State, s.MapMatches → step s = .next t → t.MapMatches

/-- Every step keeps: no two leases hold the same identity. -/
def Obligations.EveryStepKeepsIdentitiesUnique : Prop :=
  ∀ s t : State, s.IdentitiesUnique → step s = .next t → t.IdentitiesUnique

/-- Every step keeps: the Poll Ring holds each BOUND or SUSPECT slot exactly once and no other slot. -/
def Obligations.EveryStepKeepsThePollRing : Prop :=
  ∀ s t : State, s.RingMatches → step s = .next t → t.RingMatches

/-- Every step keeps: the Offer List holds each OFFERED slot exactly once and no other, at most four of them, and none while a
SOLICIT is in flight. -/
def Obligations.EveryStepKeepsTheOfferList : Prop :=
  ∀ s t : State, s.OffersMatch → step s = .next t → t.OffersMatch

/-- Every step keeps: the Request FIFO holds whole frames of 3 to 24 bytes and markers, and with the frame in assembly never
more than 256 bytes. -/
def Obligations.EveryStepKeepsTheRequestFifo : Prop :=
  ∀ s t : State, s.RequestsFit → step s = .next t → t.RequestsFit

/-- Every step keeps: a transaction is in flight in SEND, LISTEN and RECEIVE and otherwise at most between two attempts, a
pending poll stands exactly while a round runs, a probe exactly in RUNNING, and a step waits only in RUNNING and STEPPED. -/
def Obligations.EveryStepKeepsTheUnitStates : Prop :=
  ∀ s t : State, s.EngineSound ∧ s.SchedulerSound ∧ s.CensusSound → step s = .next t →
    t.EngineSound ∧ t.SchedulerSound ∧ t.CensusSound

/-- Every step keeps: parameters, timers and the counts of every lease and quarantine stay within their ranges. That a timer may
stand at 0 and the seconds count at 1000, until the event is taken, is the model's choice (log entry 5). -/
def Obligations.EveryStepKeepsTheRanges : Prop :=
  ∀ s t : State, s.ParamsInRange ∧ s.TimersInRange ∧ s.LeasesInRange → step s = .next t →
    t.ParamsInRange ∧ t.TimersInRange ∧ t.LeasesInRange

/-- Every step keeps: the bytes reserved are those of the deferred requests, and with the bytes held in the Response FIFO never
more than 512; with it the queues keep their sizes, every RELEASING lease its one entry, a RELEASE in flight its queue head, and
the Engine stays OFF or HELD while TRUNK_FAULT is high. -/
def Obligations.EveryStepKeepsTheResponseSpace : Prop :=
  let inv (s : State) : Prop :=
    s.ResponsesFit ∧ s.ReleasesMatch ∧ s.QueuesFit ∧ s.MapMatches ∧ s.RequestsFit ∧ s.releaseInFlight = true ∧ s.FaultSound ∧
      s.EngineSound
  ∀ s t : State, inv s → step s = .next t → inv t

end Statements
end

