-- ==== Sys2Proof/Laws/State.lean ====
section
/-! SUPPORT. One lemma for each field of the state under each named update of it, true by unfolding, so that no later proof
unfolds a record update. The first part says what an update leaves alone, the second what it writes. -/
namespace Sys2Proof.Machine

/-! ### What an update leaves alone -/

@[simp] theorem State.raise_pins (c : Cause) (s : State) : (s.raise c).pins = s.pins := rfl
@[simp] theorem State.raise_host (c : Cause) (s : State) : (s.raise c).host = s.host := rfl
@[simp] theorem State.raise_table (c : Cause) (s : State) : (s.raise c).table = s.table := rfl
@[simp] theorem State.raise_enrol (c : Cause) (s : State) : (s.raise c).enrol = s.enrol := rfl
@[simp] theorem State.raise_poll (c : Cause) (s : State) : (s.raise c).poll = s.poll := rfl
@[simp] theorem State.raise_census (c : Cause) (s : State) : (s.raise c).census = s.census := rfl
@[simp] theorem State.raise_releases (c : Cause) (s : State) : (s.raise c).releases = s.releases := rfl
@[simp] theorem State.raise_relays (c : Cause) (s : State) : (s.raise c).relays = s.relays := rfl
@[simp] theorem State.raise_engine (c : Cause) (s : State) : (s.raise c).engine = s.engine := rfl
@[simp] theorem State.raise_timing (c : Cause) (s : State) : (s.raise c).timing = s.timing := rfl
@[simp] theorem State.raise_pending (c : Cause) (s : State) : (s.raise c).pending = s.pending := rfl
@[simp] theorem State.raise_lease (c : Cause) (s : State) (m : Slot) : (s.raise c).lease m = s.lease m := rfl
@[simp] theorem State.raise_entry (c : Cause) (s : State) (k : Address) : (s.raise c).entry k = s.entry k := rfl
@[simp] theorem State.raise_params (c : Cause) (s : State) : (s.raise c).params = s.params := rfl

@[simp] theorem State.setReasons_pins (n : Slot) (r : BitVec 3) (s : State) : (s.setReasons n r).pins = s.pins := rfl
@[simp] theorem State.setReasons_host (n : Slot) (r : BitVec 3) (s : State) : (s.setReasons n r).host = s.host := rfl
@[simp] theorem State.setReasons_table (n : Slot) (r : BitVec 3) (s : State) : (s.setReasons n r).table = s.table := rfl
@[simp] theorem State.setReasons_enrol (n : Slot) (r : BitVec 3) (s : State) : (s.setReasons n r).enrol = s.enrol := rfl
@[simp] theorem State.setReasons_poll (n : Slot) (r : BitVec 3) (s : State) : (s.setReasons n r).poll = s.poll := rfl
@[simp] theorem State.setReasons_census (n : Slot) (r : BitVec 3) (s : State) : (s.setReasons n r).census = s.census := rfl
@[simp] theorem State.setReasons_releases (n : Slot) (r : BitVec 3) (s : State) : (s.setReasons n r).releases = s.releases := rfl
@[simp] theorem State.setReasons_relays (n : Slot) (r : BitVec 3) (s : State) : (s.setReasons n r).relays = s.relays := rfl
@[simp] theorem State.setReasons_engine (n : Slot) (r : BitVec 3) (s : State) : (s.setReasons n r).engine = s.engine := rfl
@[simp] theorem State.setReasons_timing (n : Slot) (r : BitVec 3) (s : State) : (s.setReasons n r).timing = s.timing := rfl
@[simp] theorem State.setReasons_pending (n : Slot) (r : BitVec 3) (s : State) : (s.setReasons n r).pending = s.pending := rfl
@[simp] theorem State.setReasons_lease (n : Slot) (r : BitVec 3) (s : State) (m : Slot) : (s.setReasons n r).lease m = s.lease m := rfl
@[simp] theorem State.setReasons_entry (n : Slot) (r : BitVec 3) (s : State) (k : Address) : (s.setReasons n r).entry k = s.entry k := rfl
@[simp] theorem State.setReasons_params (n : Slot) (r : BitVec 3) (s : State) : (s.setReasons n r).params = s.params := rfl

@[simp] theorem State.handOver_pins (n : Slot) (r : Reason) (s : State) : (s.handOver n r).pins = s.pins := rfl
@[simp] theorem State.handOver_host (n : Slot) (r : Reason) (s : State) : (s.handOver n r).host = s.host := rfl
@[simp] theorem State.handOver_table (n : Slot) (r : Reason) (s : State) : (s.handOver n r).table = s.table := rfl
@[simp] theorem State.handOver_enrol (n : Slot) (r : Reason) (s : State) : (s.handOver n r).enrol = s.enrol := rfl
@[simp] theorem State.handOver_poll (n : Slot) (r : Reason) (s : State) : (s.handOver n r).poll = s.poll := rfl
@[simp] theorem State.handOver_census (n : Slot) (r : Reason) (s : State) : (s.handOver n r).census = s.census := rfl
@[simp] theorem State.handOver_releases (n : Slot) (r : Reason) (s : State) : (s.handOver n r).releases = s.releases := rfl
@[simp] theorem State.handOver_relays (n : Slot) (r : Reason) (s : State) : (s.handOver n r).relays = s.relays := rfl
@[simp] theorem State.handOver_engine (n : Slot) (r : Reason) (s : State) : (s.handOver n r).engine = s.engine := rfl
@[simp] theorem State.handOver_timing (n : Slot) (r : Reason) (s : State) : (s.handOver n r).timing = s.timing := rfl
@[simp] theorem State.handOver_pending (n : Slot) (r : Reason) (s : State) : (s.handOver n r).pending = s.pending := rfl
@[simp] theorem State.handOver_lease (n : Slot) (r : Reason) (s : State) (m : Slot) : (s.handOver n r).lease m = s.lease m := rfl
@[simp] theorem State.handOver_entry (n : Slot) (r : Reason) (s : State) (k : Address) : (s.handOver n r).entry k = s.entry k := rfl
@[simp] theorem State.handOver_params (n : Slot) (r : Reason) (s : State) : (s.handOver n r).params = s.params := rfl

@[simp] theorem State.append_pins (bytes : List Byte) (s : State) : (s.append bytes).pins = s.pins := rfl
@[simp] theorem State.append_table (bytes : List Byte) (s : State) : (s.append bytes).table = s.table := rfl
@[simp] theorem State.append_enrol (bytes : List Byte) (s : State) : (s.append bytes).enrol = s.enrol := rfl
@[simp] theorem State.append_poll (bytes : List Byte) (s : State) : (s.append bytes).poll = s.poll := rfl
@[simp] theorem State.append_census (bytes : List Byte) (s : State) : (s.append bytes).census = s.census := rfl
@[simp] theorem State.append_releases (bytes : List Byte) (s : State) : (s.append bytes).releases = s.releases := rfl
@[simp] theorem State.append_relays (bytes : List Byte) (s : State) : (s.append bytes).relays = s.relays := rfl
@[simp] theorem State.append_engine (bytes : List Byte) (s : State) : (s.append bytes).engine = s.engine := rfl
@[simp] theorem State.append_timing (bytes : List Byte) (s : State) : (s.append bytes).timing = s.timing := rfl
@[simp] theorem State.append_causes (bytes : List Byte) (s : State) : (s.append bytes).causes = s.causes := rfl
@[simp] theorem State.append_pending (bytes : List Byte) (s : State) : (s.append bytes).pending = s.pending := rfl
@[simp] theorem State.append_lease (bytes : List Byte) (s : State) (m : Slot) : (s.append bytes).lease m = s.lease m := rfl
@[simp] theorem State.append_entry (bytes : List Byte) (s : State) (k : Address) : (s.append bytes).entry k = s.entry k := rfl
@[simp] theorem State.append_params (bytes : List Byte) (s : State) : (s.append bytes).params = s.params := rfl

@[simp] theorem State.respond_pins (code tag : Byte) (r : Result) (data : List Byte) (s : State) : (s.respond code tag r data).pins = s.pins := rfl
@[simp] theorem State.respond_table (code tag : Byte) (r : Result) (data : List Byte) (s : State) : (s.respond code tag r data).table = s.table := rfl
@[simp] theorem State.respond_enrol (code tag : Byte) (r : Result) (data : List Byte) (s : State) : (s.respond code tag r data).enrol = s.enrol := rfl
@[simp] theorem State.respond_poll (code tag : Byte) (r : Result) (data : List Byte) (s : State) : (s.respond code tag r data).poll = s.poll := rfl
@[simp] theorem State.respond_census (code tag : Byte) (r : Result) (data : List Byte) (s : State) : (s.respond code tag r data).census = s.census := rfl
@[simp] theorem State.respond_releases (code tag : Byte) (r : Result) (data : List Byte) (s : State) : (s.respond code tag r data).releases = s.releases := rfl
@[simp] theorem State.respond_relays (code tag : Byte) (r : Result) (data : List Byte) (s : State) : (s.respond code tag r data).relays = s.relays := rfl
@[simp] theorem State.respond_engine (code tag : Byte) (r : Result) (data : List Byte) (s : State) : (s.respond code tag r data).engine = s.engine := rfl
@[simp] theorem State.respond_timing (code tag : Byte) (r : Result) (data : List Byte) (s : State) : (s.respond code tag r data).timing = s.timing := rfl
@[simp] theorem State.respond_pending (code tag : Byte) (r : Result) (data : List Byte) (s : State) : (s.respond code tag r data).pending = s.pending := rfl
@[simp] theorem State.respond_lease (code tag : Byte) (r : Result) (data : List Byte) (s : State) (m : Slot) : (s.respond code tag r data).lease m = s.lease m := rfl
@[simp] theorem State.respond_entry (code tag : Byte) (r : Result) (data : List Byte) (s : State) (k : Address) : (s.respond code tag r data).entry k = s.entry k := rfl
@[simp] theorem State.respond_params (code tag : Byte) (r : Result) (data : List Byte) (s : State) : (s.respond code tag r data).params = s.params := rfl

@[simp] theorem State.answer_pins (q : Request) (tag : Byte) (r : Result) (data : List Byte) (s : State) : (s.answer q tag r data).pins = s.pins := rfl
@[simp] theorem State.answer_table (q : Request) (tag : Byte) (r : Result) (data : List Byte) (s : State) : (s.answer q tag r data).table = s.table := rfl
@[simp] theorem State.answer_enrol (q : Request) (tag : Byte) (r : Result) (data : List Byte) (s : State) : (s.answer q tag r data).enrol = s.enrol := rfl
@[simp] theorem State.answer_poll (q : Request) (tag : Byte) (r : Result) (data : List Byte) (s : State) : (s.answer q tag r data).poll = s.poll := rfl
@[simp] theorem State.answer_census (q : Request) (tag : Byte) (r : Result) (data : List Byte) (s : State) : (s.answer q tag r data).census = s.census := rfl
@[simp] theorem State.answer_releases (q : Request) (tag : Byte) (r : Result) (data : List Byte) (s : State) : (s.answer q tag r data).releases = s.releases := rfl
@[simp] theorem State.answer_relays (q : Request) (tag : Byte) (r : Result) (data : List Byte) (s : State) : (s.answer q tag r data).relays = s.relays := rfl
@[simp] theorem State.answer_engine (q : Request) (tag : Byte) (r : Result) (data : List Byte) (s : State) : (s.answer q tag r data).engine = s.engine := rfl
@[simp] theorem State.answer_timing (q : Request) (tag : Byte) (r : Result) (data : List Byte) (s : State) : (s.answer q tag r data).timing = s.timing := rfl
@[simp] theorem State.answer_pending (q : Request) (tag : Byte) (r : Result) (data : List Byte) (s : State) : (s.answer q tag r data).pending = s.pending := rfl
@[simp] theorem State.answer_lease (q : Request) (tag : Byte) (r : Result) (data : List Byte) (s : State) (m : Slot) : (s.answer q tag r data).lease m = s.lease m := rfl
@[simp] theorem State.answer_entry (q : Request) (tag : Byte) (r : Result) (data : List Byte) (s : State) (k : Address) : (s.answer q tag r data).entry k = s.entry k := rfl
@[simp] theorem State.answer_params (q : Request) (tag : Byte) (r : Result) (data : List Byte) (s : State) : (s.answer q tag r data).params = s.params := rfl

@[simp] theorem State.defer_pins (q : Request) (s : State) : (s.defer q).pins = s.pins := rfl
@[simp] theorem State.defer_table (q : Request) (s : State) : (s.defer q).table = s.table := rfl
@[simp] theorem State.defer_enrol (q : Request) (s : State) : (s.defer q).enrol = s.enrol := rfl
@[simp] theorem State.defer_poll (q : Request) (s : State) : (s.defer q).poll = s.poll := rfl
@[simp] theorem State.defer_census (q : Request) (s : State) : (s.defer q).census = s.census := rfl
@[simp] theorem State.defer_releases (q : Request) (s : State) : (s.defer q).releases = s.releases := rfl
@[simp] theorem State.defer_relays (q : Request) (s : State) : (s.defer q).relays = s.relays := rfl
@[simp] theorem State.defer_engine (q : Request) (s : State) : (s.defer q).engine = s.engine := rfl
@[simp] theorem State.defer_timing (q : Request) (s : State) : (s.defer q).timing = s.timing := rfl
@[simp] theorem State.defer_causes (q : Request) (s : State) : (s.defer q).causes = s.causes := rfl
@[simp] theorem State.defer_pending (q : Request) (s : State) : (s.defer q).pending = s.pending := rfl
@[simp] theorem State.defer_lease (q : Request) (s : State) (m : Slot) : (s.defer q).lease m = s.lease m := rfl
@[simp] theorem State.defer_entry (q : Request) (s : State) (k : Address) : (s.defer q).entry k = s.entry k := rfl
@[simp] theorem State.defer_params (q : Request) (s : State) : (s.defer q).params = s.params := rfl

@[simp] theorem State.settle_pins (q : Request) (tag : Byte) (r : Result) (data : List Byte) (s : State) : (s.settle q tag r data).pins = s.pins := rfl
@[simp] theorem State.settle_table (q : Request) (tag : Byte) (r : Result) (data : List Byte) (s : State) : (s.settle q tag r data).table = s.table := rfl
@[simp] theorem State.settle_enrol (q : Request) (tag : Byte) (r : Result) (data : List Byte) (s : State) : (s.settle q tag r data).enrol = s.enrol := rfl
@[simp] theorem State.settle_poll (q : Request) (tag : Byte) (r : Result) (data : List Byte) (s : State) : (s.settle q tag r data).poll = s.poll := rfl
@[simp] theorem State.settle_census (q : Request) (tag : Byte) (r : Result) (data : List Byte) (s : State) : (s.settle q tag r data).census = s.census := rfl
@[simp] theorem State.settle_releases (q : Request) (tag : Byte) (r : Result) (data : List Byte) (s : State) : (s.settle q tag r data).releases = s.releases := rfl
@[simp] theorem State.settle_relays (q : Request) (tag : Byte) (r : Result) (data : List Byte) (s : State) : (s.settle q tag r data).relays = s.relays := rfl
@[simp] theorem State.settle_engine (q : Request) (tag : Byte) (r : Result) (data : List Byte) (s : State) : (s.settle q tag r data).engine = s.engine := rfl
@[simp] theorem State.settle_timing (q : Request) (tag : Byte) (r : Result) (data : List Byte) (s : State) : (s.settle q tag r data).timing = s.timing := rfl
@[simp] theorem State.settle_pending (q : Request) (tag : Byte) (r : Result) (data : List Byte) (s : State) : (s.settle q tag r data).pending = s.pending := rfl
@[simp] theorem State.settle_lease (q : Request) (tag : Byte) (r : Result) (data : List Byte) (s : State) (m : Slot) : (s.settle q tag r data).lease m = s.lease m := rfl
@[simp] theorem State.settle_entry (q : Request) (tag : Byte) (r : Result) (data : List Byte) (s : State) (k : Address) : (s.settle q tag r data).entry k = s.entry k := rfl
@[simp] theorem State.settle_params (q : Request) (tag : Byte) (r : Result) (data : List Byte) (s : State) : (s.settle q tag r data).params = s.params := rfl

@[simp] theorem State.popped_pins (rest : List ReqEntry) (s : State) : (s.popped rest).pins = s.pins := rfl
@[simp] theorem State.popped_table (rest : List ReqEntry) (s : State) : (s.popped rest).table = s.table := rfl
@[simp] theorem State.popped_enrol (rest : List ReqEntry) (s : State) : (s.popped rest).enrol = s.enrol := rfl
@[simp] theorem State.popped_poll (rest : List ReqEntry) (s : State) : (s.popped rest).poll = s.poll := rfl
@[simp] theorem State.popped_census (rest : List ReqEntry) (s : State) : (s.popped rest).census = s.census := rfl
@[simp] theorem State.popped_releases (rest : List ReqEntry) (s : State) : (s.popped rest).releases = s.releases := rfl
@[simp] theorem State.popped_relays (rest : List ReqEntry) (s : State) : (s.popped rest).relays = s.relays := rfl
@[simp] theorem State.popped_engine (rest : List ReqEntry) (s : State) : (s.popped rest).engine = s.engine := rfl
@[simp] theorem State.popped_timing (rest : List ReqEntry) (s : State) : (s.popped rest).timing = s.timing := rfl
@[simp] theorem State.popped_causes (rest : List ReqEntry) (s : State) : (s.popped rest).causes = s.causes := rfl
@[simp] theorem State.popped_pending (rest : List ReqEntry) (s : State) : (s.popped rest).pending = s.pending := rfl
@[simp] theorem State.popped_lease (rest : List ReqEntry) (s : State) (m : Slot) : (s.popped rest).lease m = s.lease m := rfl
@[simp] theorem State.popped_entry (rest : List ReqEntry) (s : State) (k : Address) : (s.popped rest).entry k = s.entry k := rfl
@[simp] theorem State.popped_params (rest : List ReqEntry) (s : State) : (s.popped rest).params = s.params := rfl

@[simp] theorem State.replied_pins (frame : List Byte) (s : State) : (s.replied frame).pins = s.pins := rfl
@[simp] theorem State.replied_table (frame : List Byte) (s : State) : (s.replied frame).table = s.table := rfl
@[simp] theorem State.replied_enrol (frame : List Byte) (s : State) : (s.replied frame).enrol = s.enrol := rfl
@[simp] theorem State.replied_poll (frame : List Byte) (s : State) : (s.replied frame).poll = s.poll := rfl
@[simp] theorem State.replied_census (frame : List Byte) (s : State) : (s.replied frame).census = s.census := rfl
@[simp] theorem State.replied_releases (frame : List Byte) (s : State) : (s.replied frame).releases = s.releases := rfl
@[simp] theorem State.replied_relays (frame : List Byte) (s : State) : (s.replied frame).relays = s.relays := rfl
@[simp] theorem State.replied_engine (frame : List Byte) (s : State) : (s.replied frame).engine = s.engine := rfl
@[simp] theorem State.replied_timing (frame : List Byte) (s : State) : (s.replied frame).timing = s.timing := rfl
@[simp] theorem State.replied_pending (frame : List Byte) (s : State) : (s.replied frame).pending = s.pending := rfl
@[simp] theorem State.replied_lease (frame : List Byte) (s : State) (m : Slot) : (s.replied frame).lease m = s.lease m := rfl
@[simp] theorem State.replied_entry (frame : List Byte) (s : State) (k : Address) : (s.replied frame).entry k = s.entry k := rfl
@[simp] theorem State.replied_params (frame : List Byte) (s : State) : (s.replied frame).params = s.params := rfl

@[simp] theorem State.putLease_pins (n : Slot) (l : Option Lease) (s : State) : (s.putLease n l).pins = s.pins := rfl
@[simp] theorem State.putLease_host (n : Slot) (l : Option Lease) (s : State) : (s.putLease n l).host = s.host := rfl
@[simp] theorem State.putLease_enrol (n : Slot) (l : Option Lease) (s : State) : (s.putLease n l).enrol = s.enrol := rfl
@[simp] theorem State.putLease_poll (n : Slot) (l : Option Lease) (s : State) : (s.putLease n l).poll = s.poll := rfl
@[simp] theorem State.putLease_census (n : Slot) (l : Option Lease) (s : State) : (s.putLease n l).census = s.census := rfl
@[simp] theorem State.putLease_releases (n : Slot) (l : Option Lease) (s : State) : (s.putLease n l).releases = s.releases := rfl
@[simp] theorem State.putLease_relays (n : Slot) (l : Option Lease) (s : State) : (s.putLease n l).relays = s.relays := rfl
@[simp] theorem State.putLease_engine (n : Slot) (l : Option Lease) (s : State) : (s.putLease n l).engine = s.engine := rfl
@[simp] theorem State.putLease_timing (n : Slot) (l : Option Lease) (s : State) : (s.putLease n l).timing = s.timing := rfl
@[simp] theorem State.putLease_causes (n : Slot) (l : Option Lease) (s : State) : (s.putLease n l).causes = s.causes := rfl
@[simp] theorem State.putLease_pending (n : Slot) (l : Option Lease) (s : State) : (s.putLease n l).pending = s.pending := rfl
@[simp] theorem State.putLease_params (n : Slot) (l : Option Lease) (s : State) : (s.putLease n l).params = s.params := rfl

@[simp] theorem State.putEntry_pins (a : Address) (e : AddrEntry) (s : State) : (s.putEntry a e).pins = s.pins := rfl
@[simp] theorem State.putEntry_host (a : Address) (e : AddrEntry) (s : State) : (s.putEntry a e).host = s.host := rfl
@[simp] theorem State.putEntry_enrol (a : Address) (e : AddrEntry) (s : State) : (s.putEntry a e).enrol = s.enrol := rfl
@[simp] theorem State.putEntry_poll (a : Address) (e : AddrEntry) (s : State) : (s.putEntry a e).poll = s.poll := rfl
@[simp] theorem State.putEntry_census (a : Address) (e : AddrEntry) (s : State) : (s.putEntry a e).census = s.census := rfl
@[simp] theorem State.putEntry_releases (a : Address) (e : AddrEntry) (s : State) : (s.putEntry a e).releases = s.releases := rfl
@[simp] theorem State.putEntry_relays (a : Address) (e : AddrEntry) (s : State) : (s.putEntry a e).relays = s.relays := rfl
@[simp] theorem State.putEntry_engine (a : Address) (e : AddrEntry) (s : State) : (s.putEntry a e).engine = s.engine := rfl
@[simp] theorem State.putEntry_timing (a : Address) (e : AddrEntry) (s : State) : (s.putEntry a e).timing = s.timing := rfl
@[simp] theorem State.putEntry_causes (a : Address) (e : AddrEntry) (s : State) : (s.putEntry a e).causes = s.causes := rfl
@[simp] theorem State.putEntry_pending (a : Address) (e : AddrEntry) (s : State) : (s.putEntry a e).pending = s.pending := rfl
@[simp] theorem State.putEntry_params (a : Address) (e : AddrEntry) (s : State) : (s.putEntry a e).params = s.params := rfl

@[simp] theorem State.createLease_pins (n : Slot) (l : Lease) (s : State) : (s.createLease n l).pins = s.pins := rfl
@[simp] theorem State.createLease_host (n : Slot) (l : Lease) (s : State) : (s.createLease n l).host = s.host := rfl
@[simp] theorem State.createLease_enrol (n : Slot) (l : Lease) (s : State) : (s.createLease n l).enrol = s.enrol := rfl
@[simp] theorem State.createLease_poll (n : Slot) (l : Lease) (s : State) : (s.createLease n l).poll = s.poll := rfl
@[simp] theorem State.createLease_census (n : Slot) (l : Lease) (s : State) : (s.createLease n l).census = s.census := rfl
@[simp] theorem State.createLease_releases (n : Slot) (l : Lease) (s : State) : (s.createLease n l).releases = s.releases := rfl
@[simp] theorem State.createLease_relays (n : Slot) (l : Lease) (s : State) : (s.createLease n l).relays = s.relays := rfl
@[simp] theorem State.createLease_engine (n : Slot) (l : Lease) (s : State) : (s.createLease n l).engine = s.engine := rfl
@[simp] theorem State.createLease_timing (n : Slot) (l : Lease) (s : State) : (s.createLease n l).timing = s.timing := rfl
@[simp] theorem State.createLease_pending (n : Slot) (l : Lease) (s : State) : (s.createLease n l).pending = s.pending := rfl
@[simp] theorem State.createLease_params (n : Slot) (l : Lease) (s : State) : (s.createLease n l).params = s.params := rfl

@[simp] theorem State.changeStatus_pins (n : Slot) (l : Lease) (st : LeaseStatus) (s : State) : (s.changeStatus n l st).pins = s.pins := rfl
@[simp] theorem State.changeStatus_host (n : Slot) (l : Lease) (st : LeaseStatus) (s : State) : (s.changeStatus n l st).host = s.host := rfl
@[simp] theorem State.changeStatus_enrol (n : Slot) (l : Lease) (st : LeaseStatus) (s : State) : (s.changeStatus n l st).enrol = s.enrol := rfl
@[simp] theorem State.changeStatus_poll (n : Slot) (l : Lease) (st : LeaseStatus) (s : State) : (s.changeStatus n l st).poll = s.poll := rfl
@[simp] theorem State.changeStatus_census (n : Slot) (l : Lease) (st : LeaseStatus) (s : State) : (s.changeStatus n l st).census = s.census := rfl
@[simp] theorem State.changeStatus_releases (n : Slot) (l : Lease) (st : LeaseStatus) (s : State) : (s.changeStatus n l st).releases = s.releases := rfl
@[simp] theorem State.changeStatus_relays (n : Slot) (l : Lease) (st : LeaseStatus) (s : State) : (s.changeStatus n l st).relays = s.relays := rfl
@[simp] theorem State.changeStatus_engine (n : Slot) (l : Lease) (st : LeaseStatus) (s : State) : (s.changeStatus n l st).engine = s.engine := rfl
@[simp] theorem State.changeStatus_timing (n : Slot) (l : Lease) (st : LeaseStatus) (s : State) : (s.changeStatus n l st).timing = s.timing := rfl
@[simp] theorem State.changeStatus_pending (n : Slot) (l : Lease) (st : LeaseStatus) (s : State) : (s.changeStatus n l st).pending = s.pending := rfl
@[simp] theorem State.changeStatus_params (n : Slot) (l : Lease) (st : LeaseStatus) (s : State) : (s.changeStatus n l st).params = s.params := rfl

@[simp] theorem State.vacate_pins (n : Slot) (l : Lease) (q : Nat) (s : State) : (s.vacate n l q).pins = s.pins := rfl
@[simp] theorem State.vacate_host (n : Slot) (l : Lease) (q : Nat) (s : State) : (s.vacate n l q).host = s.host := rfl
@[simp] theorem State.vacate_enrol (n : Slot) (l : Lease) (q : Nat) (s : State) : (s.vacate n l q).enrol = s.enrol := rfl
@[simp] theorem State.vacate_poll (n : Slot) (l : Lease) (q : Nat) (s : State) : (s.vacate n l q).poll = s.poll := rfl
@[simp] theorem State.vacate_census (n : Slot) (l : Lease) (q : Nat) (s : State) : (s.vacate n l q).census = s.census := rfl
@[simp] theorem State.vacate_releases (n : Slot) (l : Lease) (q : Nat) (s : State) : (s.vacate n l q).releases = s.releases := rfl
@[simp] theorem State.vacate_relays (n : Slot) (l : Lease) (q : Nat) (s : State) : (s.vacate n l q).relays = s.relays := rfl
@[simp] theorem State.vacate_engine (n : Slot) (l : Lease) (q : Nat) (s : State) : (s.vacate n l q).engine = s.engine := rfl
@[simp] theorem State.vacate_timing (n : Slot) (l : Lease) (q : Nat) (s : State) : (s.vacate n l q).timing = s.timing := rfl
@[simp] theorem State.vacate_pending (n : Slot) (l : Lease) (q : Nat) (s : State) : (s.vacate n l q).pending = s.pending := rfl
@[simp] theorem State.vacate_params (n : Slot) (l : Lease) (q : Nat) (s : State) : (s.vacate n l q).params = s.params := rfl

@[simp] theorem State.setScheduler_pins (st : SchedulerState) (s : State) : (s.setScheduler st).pins = s.pins := rfl
@[simp] theorem State.setScheduler_host (st : SchedulerState) (s : State) : (s.setScheduler st).host = s.host := rfl
@[simp] theorem State.setScheduler_table (st : SchedulerState) (s : State) : (s.setScheduler st).table = s.table := rfl
@[simp] theorem State.setScheduler_enrol (st : SchedulerState) (s : State) : (s.setScheduler st).enrol = s.enrol := rfl
@[simp] theorem State.setScheduler_census (st : SchedulerState) (s : State) : (s.setScheduler st).census = s.census := rfl
@[simp] theorem State.setScheduler_releases (st : SchedulerState) (s : State) : (s.setScheduler st).releases = s.releases := rfl
@[simp] theorem State.setScheduler_relays (st : SchedulerState) (s : State) : (s.setScheduler st).relays = s.relays := rfl
@[simp] theorem State.setScheduler_engine (st : SchedulerState) (s : State) : (s.setScheduler st).engine = s.engine := rfl
@[simp] theorem State.setScheduler_timing (st : SchedulerState) (s : State) : (s.setScheduler st).timing = s.timing := rfl
@[simp] theorem State.setScheduler_causes (st : SchedulerState) (s : State) : (s.setScheduler st).causes = s.causes := rfl
@[simp] theorem State.setScheduler_pending (st : SchedulerState) (s : State) : (s.setScheduler st).pending = s.pending := rfl
@[simp] theorem State.setScheduler_lease (st : SchedulerState) (s : State) (m : Slot) : (s.setScheduler st).lease m = s.lease m := rfl
@[simp] theorem State.setScheduler_entry (st : SchedulerState) (s : State) (k : Address) : (s.setScheduler st).entry k = s.entry k := rfl
@[simp] theorem State.setScheduler_params (st : SchedulerState) (s : State) : (s.setScheduler st).params = s.params := rfl

@[simp] theorem State.clearMarks_pins (s : State) : (s.clearMarks).pins = s.pins := rfl
@[simp] theorem State.clearMarks_host (s : State) : (s.clearMarks).host = s.host := rfl
@[simp] theorem State.clearMarks_table (s : State) : (s.clearMarks).table = s.table := rfl
@[simp] theorem State.clearMarks_enrol (s : State) : (s.clearMarks).enrol = s.enrol := rfl
@[simp] theorem State.clearMarks_census (s : State) : (s.clearMarks).census = s.census := rfl
@[simp] theorem State.clearMarks_releases (s : State) : (s.clearMarks).releases = s.releases := rfl
@[simp] theorem State.clearMarks_relays (s : State) : (s.clearMarks).relays = s.relays := rfl
@[simp] theorem State.clearMarks_engine (s : State) : (s.clearMarks).engine = s.engine := rfl
@[simp] theorem State.clearMarks_timing (s : State) : (s.clearMarks).timing = s.timing := rfl
@[simp] theorem State.clearMarks_causes (s : State) : (s.clearMarks).causes = s.causes := rfl
@[simp] theorem State.clearMarks_pending (s : State) : (s.clearMarks).pending = s.pending := rfl
@[simp] theorem State.clearMarks_lease (s : State) (m : Slot) : (s.clearMarks).lease m = s.lease m := rfl
@[simp] theorem State.clearMarks_entry (s : State) (k : Address) : (s.clearMarks).entry k = s.entry k := rfl
@[simp] theorem State.clearMarks_params (s : State) : (s.clearMarks).params = s.params := rfl

@[simp] theorem State.markVisited_pins (n : Slot) (s : State) : (s.markVisited n).pins = s.pins := rfl
@[simp] theorem State.markVisited_host (n : Slot) (s : State) : (s.markVisited n).host = s.host := rfl
@[simp] theorem State.markVisited_table (n : Slot) (s : State) : (s.markVisited n).table = s.table := rfl
@[simp] theorem State.markVisited_enrol (n : Slot) (s : State) : (s.markVisited n).enrol = s.enrol := rfl
@[simp] theorem State.markVisited_census (n : Slot) (s : State) : (s.markVisited n).census = s.census := rfl
@[simp] theorem State.markVisited_releases (n : Slot) (s : State) : (s.markVisited n).releases = s.releases := rfl
@[simp] theorem State.markVisited_relays (n : Slot) (s : State) : (s.markVisited n).relays = s.relays := rfl
@[simp] theorem State.markVisited_engine (n : Slot) (s : State) : (s.markVisited n).engine = s.engine := rfl
@[simp] theorem State.markVisited_timing (n : Slot) (s : State) : (s.markVisited n).timing = s.timing := rfl
@[simp] theorem State.markVisited_causes (n : Slot) (s : State) : (s.markVisited n).causes = s.causes := rfl
@[simp] theorem State.markVisited_pending (n : Slot) (s : State) : (s.markVisited n).pending = s.pending := rfl
@[simp] theorem State.markVisited_lease (n : Slot) (s : State) (m : Slot) : (s.markVisited n).lease m = s.lease m := rfl
@[simp] theorem State.markVisited_entry (n : Slot) (s : State) (k : Address) : (s.markVisited n).entry k = s.entry k := rfl
@[simp] theorem State.markVisited_params (n : Slot) (s : State) : (s.markVisited n).params = s.params := rfl

@[simp] theorem State.setCadenceCount_pins (n : Slot) (l : Lease) (c : Nat) (s : State) : (s.setCadenceCount n l c).pins = s.pins := rfl
@[simp] theorem State.setCadenceCount_host (n : Slot) (l : Lease) (c : Nat) (s : State) : (s.setCadenceCount n l c).host = s.host := rfl
@[simp] theorem State.setCadenceCount_enrol (n : Slot) (l : Lease) (c : Nat) (s : State) : (s.setCadenceCount n l c).enrol = s.enrol := rfl
@[simp] theorem State.setCadenceCount_poll (n : Slot) (l : Lease) (c : Nat) (s : State) : (s.setCadenceCount n l c).poll = s.poll := rfl
@[simp] theorem State.setCadenceCount_census (n : Slot) (l : Lease) (c : Nat) (s : State) : (s.setCadenceCount n l c).census = s.census := rfl
@[simp] theorem State.setCadenceCount_releases (n : Slot) (l : Lease) (c : Nat) (s : State) : (s.setCadenceCount n l c).releases = s.releases := rfl
@[simp] theorem State.setCadenceCount_relays (n : Slot) (l : Lease) (c : Nat) (s : State) : (s.setCadenceCount n l c).relays = s.relays := rfl
@[simp] theorem State.setCadenceCount_engine (n : Slot) (l : Lease) (c : Nat) (s : State) : (s.setCadenceCount n l c).engine = s.engine := rfl
@[simp] theorem State.setCadenceCount_timing (n : Slot) (l : Lease) (c : Nat) (s : State) : (s.setCadenceCount n l c).timing = s.timing := rfl
@[simp] theorem State.setCadenceCount_causes (n : Slot) (l : Lease) (c : Nat) (s : State) : (s.setCadenceCount n l c).causes = s.causes := rfl
@[simp] theorem State.setCadenceCount_pending (n : Slot) (l : Lease) (c : Nat) (s : State) : (s.setCadenceCount n l c).pending = s.pending := rfl
@[simp] theorem State.setCadenceCount_params (n : Slot) (l : Lease) (c : Nat) (s : State) : (s.setCadenceCount n l c).params = s.params := rfl

@[simp] theorem State.namePoll_pins (n : Slot) (s : State) : (s.namePoll n).pins = s.pins := rfl
@[simp] theorem State.namePoll_host (n : Slot) (s : State) : (s.namePoll n).host = s.host := rfl
@[simp] theorem State.namePoll_table (n : Slot) (s : State) : (s.namePoll n).table = s.table := rfl
@[simp] theorem State.namePoll_enrol (n : Slot) (s : State) : (s.namePoll n).enrol = s.enrol := rfl
@[simp] theorem State.namePoll_census (n : Slot) (s : State) : (s.namePoll n).census = s.census := rfl
@[simp] theorem State.namePoll_releases (n : Slot) (s : State) : (s.namePoll n).releases = s.releases := rfl
@[simp] theorem State.namePoll_relays (n : Slot) (s : State) : (s.namePoll n).relays = s.relays := rfl
@[simp] theorem State.namePoll_engine (n : Slot) (s : State) : (s.namePoll n).engine = s.engine := rfl
@[simp] theorem State.namePoll_timing (n : Slot) (s : State) : (s.namePoll n).timing = s.timing := rfl
@[simp] theorem State.namePoll_causes (n : Slot) (s : State) : (s.namePoll n).causes = s.causes := rfl
@[simp] theorem State.namePoll_pending (n : Slot) (s : State) : (s.namePoll n).pending = s.pending := rfl
@[simp] theorem State.namePoll_lease (n : Slot) (s : State) (m : Slot) : (s.namePoll n).lease m = s.lease m := rfl
@[simp] theorem State.namePoll_entry (n : Slot) (s : State) (k : Address) : (s.namePoll n).entry k = s.entry k := rfl
@[simp] theorem State.namePoll_params (n : Slot) (s : State) : (s.namePoll n).params = s.params := rfl

@[simp] theorem State.countRound_pins (s : State) : (s.countRound).pins = s.pins := rfl
@[simp] theorem State.countRound_host (s : State) : (s.countRound).host = s.host := rfl
@[simp] theorem State.countRound_table (s : State) : (s.countRound).table = s.table := rfl
@[simp] theorem State.countRound_enrol (s : State) : (s.countRound).enrol = s.enrol := rfl
@[simp] theorem State.countRound_census (s : State) : (s.countRound).census = s.census := rfl
@[simp] theorem State.countRound_releases (s : State) : (s.countRound).releases = s.releases := rfl
@[simp] theorem State.countRound_relays (s : State) : (s.countRound).relays = s.relays := rfl
@[simp] theorem State.countRound_engine (s : State) : (s.countRound).engine = s.engine := rfl
@[simp] theorem State.countRound_timing (s : State) : (s.countRound).timing = s.timing := rfl
@[simp] theorem State.countRound_pending (s : State) : (s.countRound).pending = s.pending := rfl
@[simp] theorem State.countRound_lease (s : State) (m : Slot) : (s.countRound).lease m = s.lease m := rfl
@[simp] theorem State.countRound_entry (s : State) (k : Address) : (s.countRound).entry k = s.entry k := rfl
@[simp] theorem State.countRound_params (s : State) : (s.countRound).params = s.params := rfl

@[simp] theorem State.leaveRing_pins (n : Slot) (s : State) : (s.leaveRing n).pins = s.pins := rfl
@[simp] theorem State.leaveRing_host (n : Slot) (s : State) : (s.leaveRing n).host = s.host := rfl
@[simp] theorem State.leaveRing_table (n : Slot) (s : State) : (s.leaveRing n).table = s.table := rfl
@[simp] theorem State.leaveRing_enrol (n : Slot) (s : State) : (s.leaveRing n).enrol = s.enrol := rfl
@[simp] theorem State.leaveRing_census (n : Slot) (s : State) : (s.leaveRing n).census = s.census := rfl
@[simp] theorem State.leaveRing_releases (n : Slot) (s : State) : (s.leaveRing n).releases = s.releases := rfl
@[simp] theorem State.leaveRing_relays (n : Slot) (s : State) : (s.leaveRing n).relays = s.relays := rfl
@[simp] theorem State.leaveRing_engine (n : Slot) (s : State) : (s.leaveRing n).engine = s.engine := rfl
@[simp] theorem State.leaveRing_timing (n : Slot) (s : State) : (s.leaveRing n).timing = s.timing := rfl
@[simp] theorem State.leaveRing_causes (n : Slot) (s : State) : (s.leaveRing n).causes = s.causes := rfl
@[simp] theorem State.leaveRing_pending (n : Slot) (s : State) : (s.leaveRing n).pending = s.pending := rfl
@[simp] theorem State.leaveRing_lease (n : Slot) (s : State) (m : Slot) : (s.leaveRing n).lease m = s.lease m := rfl
@[simp] theorem State.leaveRing_entry (n : Slot) (s : State) (k : Address) : (s.leaveRing n).entry k = s.entry k := rfl
@[simp] theorem State.leaveRing_params (n : Slot) (s : State) : (s.leaveRing n).params = s.params := rfl

@[simp] theorem State.loseLease_pins (n : Slot) (l : Lease) (q : Nat) (s : State) : (s.loseLease n l q).pins = s.pins := rfl
@[simp] theorem State.loseLease_host (n : Slot) (l : Lease) (q : Nat) (s : State) : (s.loseLease n l q).host = s.host := rfl
@[simp] theorem State.loseLease_enrol (n : Slot) (l : Lease) (q : Nat) (s : State) : (s.loseLease n l q).enrol = s.enrol := rfl
@[simp] theorem State.loseLease_census (n : Slot) (l : Lease) (q : Nat) (s : State) : (s.loseLease n l q).census = s.census := rfl
@[simp] theorem State.loseLease_releases (n : Slot) (l : Lease) (q : Nat) (s : State) : (s.loseLease n l q).releases = s.releases := rfl
@[simp] theorem State.loseLease_relays (n : Slot) (l : Lease) (q : Nat) (s : State) : (s.loseLease n l q).relays = s.relays := rfl
@[simp] theorem State.loseLease_engine (n : Slot) (l : Lease) (q : Nat) (s : State) : (s.loseLease n l q).engine = s.engine := rfl
@[simp] theorem State.loseLease_timing (n : Slot) (l : Lease) (q : Nat) (s : State) : (s.loseLease n l q).timing = s.timing := rfl
@[simp] theorem State.loseLease_pending (n : Slot) (l : Lease) (q : Nat) (s : State) : (s.loseLease n l q).pending = s.pending := rfl
@[simp] theorem State.loseLease_params (n : Slot) (l : Lease) (q : Nat) (s : State) : (s.loseLease n l q).params = s.params := rfl

@[simp] theorem State.dropOffer_pins (n : Slot) (s : State) : (s.dropOffer n).pins = s.pins := rfl
@[simp] theorem State.dropOffer_host (n : Slot) (s : State) : (s.dropOffer n).host = s.host := rfl
@[simp] theorem State.dropOffer_table (n : Slot) (s : State) : (s.dropOffer n).table = s.table := rfl
@[simp] theorem State.dropOffer_poll (n : Slot) (s : State) : (s.dropOffer n).poll = s.poll := rfl
@[simp] theorem State.dropOffer_census (n : Slot) (s : State) : (s.dropOffer n).census = s.census := rfl
@[simp] theorem State.dropOffer_releases (n : Slot) (s : State) : (s.dropOffer n).releases = s.releases := rfl
@[simp] theorem State.dropOffer_relays (n : Slot) (s : State) : (s.dropOffer n).relays = s.relays := rfl
@[simp] theorem State.dropOffer_engine (n : Slot) (s : State) : (s.dropOffer n).engine = s.engine := rfl
@[simp] theorem State.dropOffer_timing (n : Slot) (s : State) : (s.dropOffer n).timing = s.timing := rfl
@[simp] theorem State.dropOffer_causes (n : Slot) (s : State) : (s.dropOffer n).causes = s.causes := rfl
@[simp] theorem State.dropOffer_pending (n : Slot) (s : State) : (s.dropOffer n).pending = s.pending := rfl
@[simp] theorem State.dropOffer_lease (n : Slot) (s : State) (m : Slot) : (s.dropOffer n).lease m = s.lease m := rfl
@[simp] theorem State.dropOffer_entry (n : Slot) (s : State) (k : Address) : (s.dropOffer n).entry k = s.entry k := rfl
@[simp] theorem State.dropOffer_params (n : Slot) (s : State) : (s.dropOffer n).params = s.params := rfl

@[simp] theorem State.addOffer_pins (n : Slot) (s : State) : (s.addOffer n).pins = s.pins := rfl
@[simp] theorem State.addOffer_host (n : Slot) (s : State) : (s.addOffer n).host = s.host := rfl
@[simp] theorem State.addOffer_table (n : Slot) (s : State) : (s.addOffer n).table = s.table := rfl
@[simp] theorem State.addOffer_poll (n : Slot) (s : State) : (s.addOffer n).poll = s.poll := rfl
@[simp] theorem State.addOffer_census (n : Slot) (s : State) : (s.addOffer n).census = s.census := rfl
@[simp] theorem State.addOffer_releases (n : Slot) (s : State) : (s.addOffer n).releases = s.releases := rfl
@[simp] theorem State.addOffer_relays (n : Slot) (s : State) : (s.addOffer n).relays = s.relays := rfl
@[simp] theorem State.addOffer_engine (n : Slot) (s : State) : (s.addOffer n).engine = s.engine := rfl
@[simp] theorem State.addOffer_timing (n : Slot) (s : State) : (s.addOffer n).timing = s.timing := rfl
@[simp] theorem State.addOffer_causes (n : Slot) (s : State) : (s.addOffer n).causes = s.causes := rfl
@[simp] theorem State.addOffer_pending (n : Slot) (s : State) : (s.addOffer n).pending = s.pending := rfl
@[simp] theorem State.addOffer_lease (n : Slot) (s : State) (m : Slot) : (s.addOffer n).lease m = s.lease m := rfl
@[simp] theorem State.addOffer_entry (n : Slot) (s : State) (k : Address) : (s.addOffer n).entry k = s.entry k := rfl
@[simp] theorem State.addOffer_params (n : Slot) (s : State) : (s.addOffer n).params = s.params := rfl

@[simp] theorem State.setAdmission_pins (xs : List Identity) (s : State) : (s.setAdmission xs).pins = s.pins := rfl
@[simp] theorem State.setAdmission_host (xs : List Identity) (s : State) : (s.setAdmission xs).host = s.host := rfl
@[simp] theorem State.setAdmission_table (xs : List Identity) (s : State) : (s.setAdmission xs).table = s.table := rfl
@[simp] theorem State.setAdmission_poll (xs : List Identity) (s : State) : (s.setAdmission xs).poll = s.poll := rfl
@[simp] theorem State.setAdmission_census (xs : List Identity) (s : State) : (s.setAdmission xs).census = s.census := rfl
@[simp] theorem State.setAdmission_releases (xs : List Identity) (s : State) : (s.setAdmission xs).releases = s.releases := rfl
@[simp] theorem State.setAdmission_relays (xs : List Identity) (s : State) : (s.setAdmission xs).relays = s.relays := rfl
@[simp] theorem State.setAdmission_engine (xs : List Identity) (s : State) : (s.setAdmission xs).engine = s.engine := rfl
@[simp] theorem State.setAdmission_timing (xs : List Identity) (s : State) : (s.setAdmission xs).timing = s.timing := rfl
@[simp] theorem State.setAdmission_causes (xs : List Identity) (s : State) : (s.setAdmission xs).causes = s.causes := rfl
@[simp] theorem State.setAdmission_pending (xs : List Identity) (s : State) : (s.setAdmission xs).pending = s.pending := rfl
@[simp] theorem State.setAdmission_lease (xs : List Identity) (s : State) (m : Slot) : (s.setAdmission xs).lease m = s.lease m := rfl
@[simp] theorem State.setAdmission_entry (xs : List Identity) (s : State) (k : Address) : (s.setAdmission xs).entry k = s.entry k := rfl
@[simp] theorem State.setAdmission_params (xs : List Identity) (s : State) : (s.setAdmission xs).params = s.params := rfl

@[simp] theorem State.setReleases_pins (rs : List Release) (s : State) : (s.setReleases rs).pins = s.pins := rfl
@[simp] theorem State.setReleases_host (rs : List Release) (s : State) : (s.setReleases rs).host = s.host := rfl
@[simp] theorem State.setReleases_table (rs : List Release) (s : State) : (s.setReleases rs).table = s.table := rfl
@[simp] theorem State.setReleases_enrol (rs : List Release) (s : State) : (s.setReleases rs).enrol = s.enrol := rfl
@[simp] theorem State.setReleases_poll (rs : List Release) (s : State) : (s.setReleases rs).poll = s.poll := rfl
@[simp] theorem State.setReleases_census (rs : List Release) (s : State) : (s.setReleases rs).census = s.census := rfl
@[simp] theorem State.setReleases_relays (rs : List Release) (s : State) : (s.setReleases rs).relays = s.relays := rfl
@[simp] theorem State.setReleases_engine (rs : List Release) (s : State) : (s.setReleases rs).engine = s.engine := rfl
@[simp] theorem State.setReleases_timing (rs : List Release) (s : State) : (s.setReleases rs).timing = s.timing := rfl
@[simp] theorem State.setReleases_causes (rs : List Release) (s : State) : (s.setReleases rs).causes = s.causes := rfl
@[simp] theorem State.setReleases_pending (rs : List Release) (s : State) : (s.setReleases rs).pending = s.pending := rfl
@[simp] theorem State.setReleases_lease (rs : List Release) (s : State) (m : Slot) : (s.setReleases rs).lease m = s.lease m := rfl
@[simp] theorem State.setReleases_entry (rs : List Release) (s : State) (k : Address) : (s.setReleases rs).entry k = s.entry k := rfl
@[simp] theorem State.setReleases_params (rs : List Release) (s : State) : (s.setReleases rs).params = s.params := rfl

@[simp] theorem State.setRelays_pins (rs : List Relay) (s : State) : (s.setRelays rs).pins = s.pins := rfl
@[simp] theorem State.setRelays_host (rs : List Relay) (s : State) : (s.setRelays rs).host = s.host := rfl
@[simp] theorem State.setRelays_table (rs : List Relay) (s : State) : (s.setRelays rs).table = s.table := rfl
@[simp] theorem State.setRelays_enrol (rs : List Relay) (s : State) : (s.setRelays rs).enrol = s.enrol := rfl
@[simp] theorem State.setRelays_poll (rs : List Relay) (s : State) : (s.setRelays rs).poll = s.poll := rfl
@[simp] theorem State.setRelays_census (rs : List Relay) (s : State) : (s.setRelays rs).census = s.census := rfl
@[simp] theorem State.setRelays_releases (rs : List Relay) (s : State) : (s.setRelays rs).releases = s.releases := rfl
@[simp] theorem State.setRelays_engine (rs : List Relay) (s : State) : (s.setRelays rs).engine = s.engine := rfl
@[simp] theorem State.setRelays_timing (rs : List Relay) (s : State) : (s.setRelays rs).timing = s.timing := rfl
@[simp] theorem State.setRelays_causes (rs : List Relay) (s : State) : (s.setRelays rs).causes = s.causes := rfl
@[simp] theorem State.setRelays_pending (rs : List Relay) (s : State) : (s.setRelays rs).pending = s.pending := rfl
@[simp] theorem State.setRelays_lease (rs : List Relay) (s : State) (m : Slot) : (s.setRelays rs).lease m = s.lease m := rfl
@[simp] theorem State.setRelays_entry (rs : List Relay) (s : State) (k : Address) : (s.setRelays rs).entry k = s.entry k := rfl
@[simp] theorem State.setRelays_params (rs : List Relay) (s : State) : (s.setRelays rs).params = s.params := rfl

@[simp] theorem State.setCensus_pins (st : CensusState) (s : State) : (s.setCensus st).pins = s.pins := rfl
@[simp] theorem State.setCensus_host (st : CensusState) (s : State) : (s.setCensus st).host = s.host := rfl
@[simp] theorem State.setCensus_table (st : CensusState) (s : State) : (s.setCensus st).table = s.table := rfl
@[simp] theorem State.setCensus_enrol (st : CensusState) (s : State) : (s.setCensus st).enrol = s.enrol := rfl
@[simp] theorem State.setCensus_poll (st : CensusState) (s : State) : (s.setCensus st).poll = s.poll := rfl
@[simp] theorem State.setCensus_releases (st : CensusState) (s : State) : (s.setCensus st).releases = s.releases := rfl
@[simp] theorem State.setCensus_relays (st : CensusState) (s : State) : (s.setCensus st).relays = s.relays := rfl
@[simp] theorem State.setCensus_engine (st : CensusState) (s : State) : (s.setCensus st).engine = s.engine := rfl
@[simp] theorem State.setCensus_timing (st : CensusState) (s : State) : (s.setCensus st).timing = s.timing := rfl
@[simp] theorem State.setCensus_causes (st : CensusState) (s : State) : (s.setCensus st).causes = s.causes := rfl
@[simp] theorem State.setCensus_pending (st : CensusState) (s : State) : (s.setCensus st).pending = s.pending := rfl
@[simp] theorem State.setCensus_lease (st : CensusState) (s : State) (m : Slot) : (s.setCensus st).lease m = s.lease m := rfl
@[simp] theorem State.setCensus_entry (st : CensusState) (s : State) (k : Address) : (s.setCensus st).entry k = s.entry k := rfl
@[simp] theorem State.setCensus_params (st : CensusState) (s : State) : (s.setCensus st).params = s.params := rfl

@[simp] theorem State.nameProbe_pins (a : Address) (s : State) : (s.nameProbe a).pins = s.pins := rfl
@[simp] theorem State.nameProbe_host (a : Address) (s : State) : (s.nameProbe a).host = s.host := rfl
@[simp] theorem State.nameProbe_table (a : Address) (s : State) : (s.nameProbe a).table = s.table := rfl
@[simp] theorem State.nameProbe_enrol (a : Address) (s : State) : (s.nameProbe a).enrol = s.enrol := rfl
@[simp] theorem State.nameProbe_poll (a : Address) (s : State) : (s.nameProbe a).poll = s.poll := rfl
@[simp] theorem State.nameProbe_releases (a : Address) (s : State) : (s.nameProbe a).releases = s.releases := rfl
@[simp] theorem State.nameProbe_relays (a : Address) (s : State) : (s.nameProbe a).relays = s.relays := rfl
@[simp] theorem State.nameProbe_engine (a : Address) (s : State) : (s.nameProbe a).engine = s.engine := rfl
@[simp] theorem State.nameProbe_timing (a : Address) (s : State) : (s.nameProbe a).timing = s.timing := rfl
@[simp] theorem State.nameProbe_causes (a : Address) (s : State) : (s.nameProbe a).causes = s.causes := rfl
@[simp] theorem State.nameProbe_pending (a : Address) (s : State) : (s.nameProbe a).pending = s.pending := rfl
@[simp] theorem State.nameProbe_lease (a : Address) (s : State) (m : Slot) : (s.nameProbe a).lease m = s.lease m := rfl
@[simp] theorem State.nameProbe_entry (a : Address) (s : State) (k : Address) : (s.nameProbe a).entry k = s.entry k := rfl
@[simp] theorem State.nameProbe_params (a : Address) (s : State) : (s.nameProbe a).params = s.params := rfl

@[simp] theorem State.endPass_pins (s : State) : (s.endPass).pins = s.pins := rfl
@[simp] theorem State.endPass_host (s : State) : (s.endPass).host = s.host := rfl
@[simp] theorem State.endPass_table (s : State) : (s.endPass).table = s.table := rfl
@[simp] theorem State.endPass_enrol (s : State) : (s.endPass).enrol = s.enrol := rfl
@[simp] theorem State.endPass_poll (s : State) : (s.endPass).poll = s.poll := rfl
@[simp] theorem State.endPass_releases (s : State) : (s.endPass).releases = s.releases := rfl
@[simp] theorem State.endPass_relays (s : State) : (s.endPass).relays = s.relays := rfl
@[simp] theorem State.endPass_engine (s : State) : (s.endPass).engine = s.engine := rfl
@[simp] theorem State.endPass_timing (s : State) : (s.endPass).timing = s.timing := rfl
@[simp] theorem State.endPass_pending (s : State) : (s.endPass).pending = s.pending := rfl
@[simp] theorem State.endPass_lease (s : State) (m : Slot) : (s.endPass).lease m = s.lease m := rfl
@[simp] theorem State.endPass_entry (s : State) (k : Address) : (s.endPass).entry k = s.entry k := rfl
@[simp] theorem State.endPass_params (s : State) : (s.endPass).params = s.params := rfl

@[simp] theorem State.countAdopted_pins (s : State) : (s.countAdopted).pins = s.pins := rfl
@[simp] theorem State.countAdopted_host (s : State) : (s.countAdopted).host = s.host := rfl
@[simp] theorem State.countAdopted_table (s : State) : (s.countAdopted).table = s.table := rfl
@[simp] theorem State.countAdopted_enrol (s : State) : (s.countAdopted).enrol = s.enrol := rfl
@[simp] theorem State.countAdopted_poll (s : State) : (s.countAdopted).poll = s.poll := rfl
@[simp] theorem State.countAdopted_releases (s : State) : (s.countAdopted).releases = s.releases := rfl
@[simp] theorem State.countAdopted_relays (s : State) : (s.countAdopted).relays = s.relays := rfl
@[simp] theorem State.countAdopted_engine (s : State) : (s.countAdopted).engine = s.engine := rfl
@[simp] theorem State.countAdopted_timing (s : State) : (s.countAdopted).timing = s.timing := rfl
@[simp] theorem State.countAdopted_causes (s : State) : (s.countAdopted).causes = s.causes := rfl
@[simp] theorem State.countAdopted_pending (s : State) : (s.countAdopted).pending = s.pending := rfl
@[simp] theorem State.countAdopted_lease (s : State) (m : Slot) : (s.countAdopted).lease m = s.lease m := rfl
@[simp] theorem State.countAdopted_entry (s : State) (k : Address) : (s.countAdopted).entry k = s.entry k := rfl
@[simp] theorem State.countAdopted_params (s : State) : (s.countAdopted).params = s.params := rfl

@[simp] theorem State.enterEngine_pins (st : EngineState) (s : State) : (s.enterEngine st).pins = s.pins := rfl
@[simp] theorem State.enterEngine_host (st : EngineState) (s : State) : (s.enterEngine st).host = s.host := rfl
@[simp] theorem State.enterEngine_table (st : EngineState) (s : State) : (s.enterEngine st).table = s.table := rfl
@[simp] theorem State.enterEngine_enrol (st : EngineState) (s : State) : (s.enterEngine st).enrol = s.enrol := rfl
@[simp] theorem State.enterEngine_poll (st : EngineState) (s : State) : (s.enterEngine st).poll = s.poll := rfl
@[simp] theorem State.enterEngine_census (st : EngineState) (s : State) : (s.enterEngine st).census = s.census := rfl
@[simp] theorem State.enterEngine_releases (st : EngineState) (s : State) : (s.enterEngine st).releases = s.releases := rfl
@[simp] theorem State.enterEngine_relays (st : EngineState) (s : State) : (s.enterEngine st).relays = s.relays := rfl
@[simp] theorem State.enterEngine_timing (st : EngineState) (s : State) : (s.enterEngine st).timing = s.timing := rfl
@[simp] theorem State.enterEngine_causes (st : EngineState) (s : State) : (s.enterEngine st).causes = s.causes := rfl
@[simp] theorem State.enterEngine_pending (st : EngineState) (s : State) : (s.enterEngine st).pending = s.pending := rfl
@[simp] theorem State.enterEngine_lease (st : EngineState) (s : State) (m : Slot) : (s.enterEngine st).lease m = s.lease m := rfl
@[simp] theorem State.enterEngine_entry (st : EngineState) (s : State) (k : Address) : (s.enterEngine st).entry k = s.entry k := rfl
@[simp] theorem State.enterEngine_params (st : EngineState) (s : State) : (s.enterEngine st).params = s.params := rfl

@[simp] theorem State.enterGuard_pins (ended : Nat) (s : State) : (s.enterGuard ended).pins = s.pins := rfl
@[simp] theorem State.enterGuard_host (ended : Nat) (s : State) : (s.enterGuard ended).host = s.host := rfl
@[simp] theorem State.enterGuard_table (ended : Nat) (s : State) : (s.enterGuard ended).table = s.table := rfl
@[simp] theorem State.enterGuard_enrol (ended : Nat) (s : State) : (s.enterGuard ended).enrol = s.enrol := rfl
@[simp] theorem State.enterGuard_poll (ended : Nat) (s : State) : (s.enterGuard ended).poll = s.poll := rfl
@[simp] theorem State.enterGuard_census (ended : Nat) (s : State) : (s.enterGuard ended).census = s.census := rfl
@[simp] theorem State.enterGuard_releases (ended : Nat) (s : State) : (s.enterGuard ended).releases = s.releases := rfl
@[simp] theorem State.enterGuard_relays (ended : Nat) (s : State) : (s.enterGuard ended).relays = s.relays := rfl
@[simp] theorem State.enterGuard_timing (ended : Nat) (s : State) : (s.enterGuard ended).timing = s.timing := rfl
@[simp] theorem State.enterGuard_causes (ended : Nat) (s : State) : (s.enterGuard ended).causes = s.causes := rfl
@[simp] theorem State.enterGuard_pending (ended : Nat) (s : State) : (s.enterGuard ended).pending = s.pending := rfl
@[simp] theorem State.enterGuard_lease (ended : Nat) (s : State) (m : Slot) : (s.enterGuard ended).lease m = s.lease m := rfl
@[simp] theorem State.enterGuard_entry (ended : Nat) (s : State) (k : Address) : (s.enterGuard ended).entry k = s.entry k := rfl
@[simp] theorem State.enterGuard_params (ended : Nat) (s : State) : (s.enterGuard ended).params = s.params := rfl

@[simp] theorem State.passTo_pins (t : Nat) (s : State) : (s.passTo t).pins = s.pins := rfl
@[simp] theorem State.passTo_host (t : Nat) (s : State) : (s.passTo t).host = s.host := rfl
@[simp] theorem State.passTo_table (t : Nat) (s : State) : (s.passTo t).table = s.table := rfl
@[simp] theorem State.passTo_enrol (t : Nat) (s : State) : (s.passTo t).enrol = s.enrol := rfl
@[simp] theorem State.passTo_poll (t : Nat) (s : State) : (s.passTo t).poll = s.poll := rfl
@[simp] theorem State.passTo_census (t : Nat) (s : State) : (s.passTo t).census = s.census := rfl
@[simp] theorem State.passTo_releases (t : Nat) (s : State) : (s.passTo t).releases = s.releases := rfl
@[simp] theorem State.passTo_relays (t : Nat) (s : State) : (s.passTo t).relays = s.relays := rfl
@[simp] theorem State.passTo_timing (t : Nat) (s : State) : (s.passTo t).timing = s.timing := rfl
@[simp] theorem State.passTo_causes (t : Nat) (s : State) : (s.passTo t).causes = s.causes := rfl
@[simp] theorem State.passTo_pending (t : Nat) (s : State) : (s.passTo t).pending = s.pending := rfl
@[simp] theorem State.passTo_lease (t : Nat) (s : State) (m : Slot) : (s.passTo t).lease m = s.lease m := rfl
@[simp] theorem State.passTo_entry (t : Nat) (s : State) (k : Address) : (s.passTo t).entry k = s.entry k := rfl
@[simp] theorem State.passTo_params (t : Nat) (s : State) : (s.passTo t).params = s.params := rfl

@[simp] theorem State.setTxn_pins (t : Option Txn) (s : State) : (s.setTxn t).pins = s.pins := rfl
@[simp] theorem State.setTxn_host (t : Option Txn) (s : State) : (s.setTxn t).host = s.host := rfl
@[simp] theorem State.setTxn_table (t : Option Txn) (s : State) : (s.setTxn t).table = s.table := rfl
@[simp] theorem State.setTxn_enrol (t : Option Txn) (s : State) : (s.setTxn t).enrol = s.enrol := rfl
@[simp] theorem State.setTxn_poll (t : Option Txn) (s : State) : (s.setTxn t).poll = s.poll := rfl
@[simp] theorem State.setTxn_census (t : Option Txn) (s : State) : (s.setTxn t).census = s.census := rfl
@[simp] theorem State.setTxn_releases (t : Option Txn) (s : State) : (s.setTxn t).releases = s.releases := rfl
@[simp] theorem State.setTxn_relays (t : Option Txn) (s : State) : (s.setTxn t).relays = s.relays := rfl
@[simp] theorem State.setTxn_timing (t : Option Txn) (s : State) : (s.setTxn t).timing = s.timing := rfl
@[simp] theorem State.setTxn_causes (t : Option Txn) (s : State) : (s.setTxn t).causes = s.causes := rfl
@[simp] theorem State.setTxn_pending (t : Option Txn) (s : State) : (s.setTxn t).pending = s.pending := rfl
@[simp] theorem State.setTxn_lease (t : Option Txn) (s : State) (m : Slot) : (s.setTxn t).lease m = s.lease m := rfl
@[simp] theorem State.setTxn_entry (t : Option Txn) (s : State) (k : Address) : (s.setTxn t).entry k = s.entry k := rfl
@[simp] theorem State.setTxn_params (t : Option Txn) (s : State) : (s.setTxn t).params = s.params := rfl

@[simp] theorem State.setReception_pins (r : Reception) (s : State) : (s.setReception r).pins = s.pins := rfl
@[simp] theorem State.setReception_host (r : Reception) (s : State) : (s.setReception r).host = s.host := rfl
@[simp] theorem State.setReception_table (r : Reception) (s : State) : (s.setReception r).table = s.table := rfl
@[simp] theorem State.setReception_enrol (r : Reception) (s : State) : (s.setReception r).enrol = s.enrol := rfl
@[simp] theorem State.setReception_poll (r : Reception) (s : State) : (s.setReception r).poll = s.poll := rfl
@[simp] theorem State.setReception_census (r : Reception) (s : State) : (s.setReception r).census = s.census := rfl
@[simp] theorem State.setReception_releases (r : Reception) (s : State) : (s.setReception r).releases = s.releases := rfl
@[simp] theorem State.setReception_relays (r : Reception) (s : State) : (s.setReception r).relays = s.relays := rfl
@[simp] theorem State.setReception_timing (r : Reception) (s : State) : (s.setReception r).timing = s.timing := rfl
@[simp] theorem State.setReception_causes (r : Reception) (s : State) : (s.setReception r).causes = s.causes := rfl
@[simp] theorem State.setReception_pending (r : Reception) (s : State) : (s.setReception r).pending = s.pending := rfl
@[simp] theorem State.setReception_lease (r : Reception) (s : State) (m : Slot) : (s.setReception r).lease m = s.lease m := rfl
@[simp] theorem State.setReception_entry (r : Reception) (s : State) (k : Address) : (s.setReception r).entry k = s.entry k := rfl
@[simp] theorem State.setReception_params (r : Reception) (s : State) : (s.setReception r).params = s.params := rfl

@[simp] theorem State.beginTxn_pins (t : Txn) (burst : Nat) (s : State) : (s.beginTxn t burst).pins = s.pins := rfl
@[simp] theorem State.beginTxn_host (t : Txn) (burst : Nat) (s : State) : (s.beginTxn t burst).host = s.host := rfl
@[simp] theorem State.beginTxn_table (t : Txn) (burst : Nat) (s : State) : (s.beginTxn t burst).table = s.table := rfl
@[simp] theorem State.beginTxn_enrol (t : Txn) (burst : Nat) (s : State) : (s.beginTxn t burst).enrol = s.enrol := rfl
@[simp] theorem State.beginTxn_poll (t : Txn) (burst : Nat) (s : State) : (s.beginTxn t burst).poll = s.poll := rfl
@[simp] theorem State.beginTxn_census (t : Txn) (burst : Nat) (s : State) : (s.beginTxn t burst).census = s.census := rfl
@[simp] theorem State.beginTxn_releases (t : Txn) (burst : Nat) (s : State) : (s.beginTxn t burst).releases = s.releases := rfl
@[simp] theorem State.beginTxn_relays (t : Txn) (burst : Nat) (s : State) : (s.beginTxn t burst).relays = s.relays := rfl
@[simp] theorem State.beginTxn_timing (t : Txn) (burst : Nat) (s : State) : (s.beginTxn t burst).timing = s.timing := rfl
@[simp] theorem State.beginTxn_causes (t : Txn) (burst : Nat) (s : State) : (s.beginTxn t burst).causes = s.causes := rfl
@[simp] theorem State.beginTxn_pending (t : Txn) (burst : Nat) (s : State) : (s.beginTxn t burst).pending = s.pending := rfl
@[simp] theorem State.beginTxn_lease (t : Txn) (burst : Nat) (s : State) (m : Slot) : (s.beginTxn t burst).lease m = s.lease m := rfl
@[simp] theorem State.beginTxn_entry (t : Txn) (burst : Nat) (s : State) (k : Address) : (s.beginTxn t burst).entry k = s.entry k := rfl
@[simp] theorem State.beginTxn_params (t : Txn) (burst : Nat) (s : State) : (s.beginTxn t burst).params = s.params := rfl

@[simp] theorem State.sending_pins (t : Txn) (burst : Nat) (s : State) : (s.sending t burst).pins = s.pins := rfl
@[simp] theorem State.sending_host (t : Txn) (burst : Nat) (s : State) : (s.sending t burst).host = s.host := rfl
@[simp] theorem State.sending_table (t : Txn) (burst : Nat) (s : State) : (s.sending t burst).table = s.table := rfl
@[simp] theorem State.sending_enrol (t : Txn) (burst : Nat) (s : State) : (s.sending t burst).enrol = s.enrol := rfl
@[simp] theorem State.sending_poll (t : Txn) (burst : Nat) (s : State) : (s.sending t burst).poll = s.poll := rfl
@[simp] theorem State.sending_census (t : Txn) (burst : Nat) (s : State) : (s.sending t burst).census = s.census := rfl
@[simp] theorem State.sending_releases (t : Txn) (burst : Nat) (s : State) : (s.sending t burst).releases = s.releases := rfl
@[simp] theorem State.sending_relays (t : Txn) (burst : Nat) (s : State) : (s.sending t burst).relays = s.relays := rfl
@[simp] theorem State.sending_timing (t : Txn) (burst : Nat) (s : State) : (s.sending t burst).timing = s.timing := rfl
@[simp] theorem State.sending_causes (t : Txn) (burst : Nat) (s : State) : (s.sending t burst).causes = s.causes := rfl
@[simp] theorem State.sending_pending (t : Txn) (burst : Nat) (s : State) : (s.sending t burst).pending = s.pending := rfl
@[simp] theorem State.sending_lease (t : Txn) (burst : Nat) (s : State) (m : Slot) : (s.sending t burst).lease m = s.lease m := rfl
@[simp] theorem State.sending_entry (t : Txn) (burst : Nat) (s : State) (k : Address) : (s.sending t burst).entry k = s.entry k := rfl
@[simp] theorem State.sending_params (t : Txn) (burst : Nat) (s : State) : (s.sending t burst).params = s.params := rfl

@[simp] theorem State.inState_pins (st : EngineState) (s : State) : (s.inState st).pins = s.pins := rfl
@[simp] theorem State.inState_host (st : EngineState) (s : State) : (s.inState st).host = s.host := rfl
@[simp] theorem State.inState_table (st : EngineState) (s : State) : (s.inState st).table = s.table := rfl
@[simp] theorem State.inState_enrol (st : EngineState) (s : State) : (s.inState st).enrol = s.enrol := rfl
@[simp] theorem State.inState_poll (st : EngineState) (s : State) : (s.inState st).poll = s.poll := rfl
@[simp] theorem State.inState_census (st : EngineState) (s : State) : (s.inState st).census = s.census := rfl
@[simp] theorem State.inState_releases (st : EngineState) (s : State) : (s.inState st).releases = s.releases := rfl
@[simp] theorem State.inState_relays (st : EngineState) (s : State) : (s.inState st).relays = s.relays := rfl
@[simp] theorem State.inState_timing (st : EngineState) (s : State) : (s.inState st).timing = s.timing := rfl
@[simp] theorem State.inState_causes (st : EngineState) (s : State) : (s.inState st).causes = s.causes := rfl
@[simp] theorem State.inState_pending (st : EngineState) (s : State) : (s.inState st).pending = s.pending := rfl
@[simp] theorem State.inState_lease (st : EngineState) (s : State) (m : Slot) : (s.inState st).lease m = s.lease m := rfl
@[simp] theorem State.inState_entry (st : EngineState) (s : State) (k : Address) : (s.inState st).entry k = s.entry k := rfl
@[simp] theorem State.inState_params (st : EngineState) (s : State) : (s.inState st).params = s.params := rfl

@[simp] theorem State.beginFault_pins (s : State) : (s.beginFault).pins = s.pins := rfl
@[simp] theorem State.beginFault_host (s : State) : (s.beginFault).host = s.host := rfl
@[simp] theorem State.beginFault_table (s : State) : (s.beginFault).table = s.table := rfl
@[simp] theorem State.beginFault_enrol (s : State) : (s.beginFault).enrol = s.enrol := rfl
@[simp] theorem State.beginFault_poll (s : State) : (s.beginFault).poll = s.poll := rfl
@[simp] theorem State.beginFault_census (s : State) : (s.beginFault).census = s.census := rfl
@[simp] theorem State.beginFault_releases (s : State) : (s.beginFault).releases = s.releases := rfl
@[simp] theorem State.beginFault_relays (s : State) : (s.beginFault).relays = s.relays := rfl
@[simp] theorem State.beginFault_timing (s : State) : (s.beginFault).timing = s.timing := rfl
@[simp] theorem State.beginFault_pending (s : State) : (s.beginFault).pending = s.pending := rfl
@[simp] theorem State.beginFault_lease (s : State) (m : Slot) : (s.beginFault).lease m = s.lease m := rfl
@[simp] theorem State.beginFault_entry (s : State) (k : Address) : (s.beginFault).entry k = s.entry k := rfl
@[simp] theorem State.beginFault_params (s : State) : (s.beginFault).params = s.params := rfl

@[simp] theorem State.setParams_pins (p : Params) (s : State) : (s.setParams p).pins = s.pins := rfl
@[simp] theorem State.setParams_host (p : Params) (s : State) : (s.setParams p).host = s.host := rfl
@[simp] theorem State.setParams_table (p : Params) (s : State) : (s.setParams p).table = s.table := rfl
@[simp] theorem State.setParams_enrol (p : Params) (s : State) : (s.setParams p).enrol = s.enrol := rfl
@[simp] theorem State.setParams_poll (p : Params) (s : State) : (s.setParams p).poll = s.poll := rfl
@[simp] theorem State.setParams_census (p : Params) (s : State) : (s.setParams p).census = s.census := rfl
@[simp] theorem State.setParams_releases (p : Params) (s : State) : (s.setParams p).releases = s.releases := rfl
@[simp] theorem State.setParams_relays (p : Params) (s : State) : (s.setParams p).relays = s.relays := rfl
@[simp] theorem State.setParams_engine (p : Params) (s : State) : (s.setParams p).engine = s.engine := rfl
@[simp] theorem State.setParams_causes (p : Params) (s : State) : (s.setParams p).causes = s.causes := rfl
@[simp] theorem State.setParams_pending (p : Params) (s : State) : (s.setParams p).pending = s.pending := rfl
@[simp] theorem State.setParams_lease (p : Params) (s : State) (m : Slot) : (s.setParams p).lease m = s.lease m := rfl
@[simp] theorem State.setParams_entry (p : Params) (s : State) (k : Address) : (s.setParams p).entry k = s.entry k := rfl

@[simp] theorem State.restartPrescaler_pins (s : State) : (s.restartPrescaler).pins = s.pins := rfl
@[simp] theorem State.restartPrescaler_host (s : State) : (s.restartPrescaler).host = s.host := rfl
@[simp] theorem State.restartPrescaler_table (s : State) : (s.restartPrescaler).table = s.table := rfl
@[simp] theorem State.restartPrescaler_enrol (s : State) : (s.restartPrescaler).enrol = s.enrol := rfl
@[simp] theorem State.restartPrescaler_poll (s : State) : (s.restartPrescaler).poll = s.poll := rfl
@[simp] theorem State.restartPrescaler_census (s : State) : (s.restartPrescaler).census = s.census := rfl
@[simp] theorem State.restartPrescaler_releases (s : State) : (s.restartPrescaler).releases = s.releases := rfl
@[simp] theorem State.restartPrescaler_relays (s : State) : (s.restartPrescaler).relays = s.relays := rfl
@[simp] theorem State.restartPrescaler_engine (s : State) : (s.restartPrescaler).engine = s.engine := rfl
@[simp] theorem State.restartPrescaler_causes (s : State) : (s.restartPrescaler).causes = s.causes := rfl
@[simp] theorem State.restartPrescaler_pending (s : State) : (s.restartPrescaler).pending = s.pending := rfl
@[simp] theorem State.restartPrescaler_lease (s : State) (m : Slot) : (s.restartPrescaler).lease m = s.lease m := rfl
@[simp] theorem State.restartPrescaler_entry (s : State) (k : Address) : (s.restartPrescaler).entry k = s.entry k := rfl

@[simp] theorem State.setAccess_pins (a : Access) (s : State) : (s.setAccess a).pins = s.pins := rfl
@[simp] theorem State.setAccess_table (a : Access) (s : State) : (s.setAccess a).table = s.table := rfl
@[simp] theorem State.setAccess_enrol (a : Access) (s : State) : (s.setAccess a).enrol = s.enrol := rfl
@[simp] theorem State.setAccess_poll (a : Access) (s : State) : (s.setAccess a).poll = s.poll := rfl
@[simp] theorem State.setAccess_census (a : Access) (s : State) : (s.setAccess a).census = s.census := rfl
@[simp] theorem State.setAccess_releases (a : Access) (s : State) : (s.setAccess a).releases = s.releases := rfl
@[simp] theorem State.setAccess_relays (a : Access) (s : State) : (s.setAccess a).relays = s.relays := rfl
@[simp] theorem State.setAccess_engine (a : Access) (s : State) : (s.setAccess a).engine = s.engine := rfl
@[simp] theorem State.setAccess_timing (a : Access) (s : State) : (s.setAccess a).timing = s.timing := rfl
@[simp] theorem State.setAccess_causes (a : Access) (s : State) : (s.setAccess a).causes = s.causes := rfl
@[simp] theorem State.setAccess_pending (a : Access) (s : State) : (s.setAccess a).pending = s.pending := rfl
@[simp] theorem State.setAccess_lease (a : Access) (s : State) (m : Slot) : (s.setAccess a).lease m = s.lease m := rfl
@[simp] theorem State.setAccess_entry (a : Access) (s : State) (k : Address) : (s.setAccess a).entry k = s.entry k := rfl
@[simp] theorem State.setAccess_params (a : Access) (s : State) : (s.setAccess a).params = s.params := rfl

@[simp] theorem State.enqueue_pins (e : ReqEntry) (s : State) : (s.enqueue e).pins = s.pins := rfl
@[simp] theorem State.enqueue_table (e : ReqEntry) (s : State) : (s.enqueue e).table = s.table := rfl
@[simp] theorem State.enqueue_enrol (e : ReqEntry) (s : State) : (s.enqueue e).enrol = s.enrol := rfl
@[simp] theorem State.enqueue_poll (e : ReqEntry) (s : State) : (s.enqueue e).poll = s.poll := rfl
@[simp] theorem State.enqueue_census (e : ReqEntry) (s : State) : (s.enqueue e).census = s.census := rfl
@[simp] theorem State.enqueue_releases (e : ReqEntry) (s : State) : (s.enqueue e).releases = s.releases := rfl
@[simp] theorem State.enqueue_relays (e : ReqEntry) (s : State) : (s.enqueue e).relays = s.relays := rfl
@[simp] theorem State.enqueue_engine (e : ReqEntry) (s : State) : (s.enqueue e).engine = s.engine := rfl
@[simp] theorem State.enqueue_timing (e : ReqEntry) (s : State) : (s.enqueue e).timing = s.timing := rfl
@[simp] theorem State.enqueue_causes (e : ReqEntry) (s : State) : (s.enqueue e).causes = s.causes := rfl
@[simp] theorem State.enqueue_pending (e : ReqEntry) (s : State) : (s.enqueue e).pending = s.pending := rfl
@[simp] theorem State.enqueue_lease (e : ReqEntry) (s : State) (m : Slot) : (s.enqueue e).lease m = s.lease m := rfl
@[simp] theorem State.enqueue_entry (e : ReqEntry) (s : State) (k : Address) : (s.enqueue e).entry k = s.entry k := rfl
@[simp] theorem State.enqueue_params (e : ReqEntry) (s : State) : (s.enqueue e).params = s.params := rfl

/-! ### What an update writes -/

@[simp] theorem State.raise_flags (c : Cause) (s : State) :
    (s.raise c).causes.flags = s.causes.flags ||| c.mask := rfl
@[simp] theorem State.raise_enables (c : Cause) (s : State) : (s.raise c).causes.enables = s.causes.enables := rfl
@[simp] theorem State.raise_changes (c : Cause) (s : State) : (s.raise c).causes.changes = s.causes.changes := rfl
@[simp] theorem State.setReasons_flags (n : Slot) (r : BitVec 3) (s : State) :
    (s.setReasons n r).causes.flags = s.causes.flags := rfl
@[simp] theorem State.setReasons_enables (n : Slot) (r : BitVec 3) (s : State) :
    (s.setReasons n r).causes.enables = s.causes.enables := rfl
@[simp] theorem State.handOver_flags (n : Slot) (r : Reason) (s : State) :
    (s.handOver n r).causes.flags = s.causes.flags ||| Cause.changes.mask := rfl
@[simp] theorem State.handOver_enables (n : Slot) (r : Reason) (s : State) :
    (s.handOver n r).causes.enables = s.causes.enables := rfl

@[simp] theorem State.append_responses (bytes : List Byte) (s : State) :
    (s.append bytes).host.responses = s.host.responses ++ bytes := rfl
@[simp] theorem State.append_requests (bytes : List Byte) (s : State) :
    (s.append bytes).host.requests = s.host.requests := rfl
@[simp] theorem State.append_access (bytes : List Byte) (s : State) :
    (s.append bytes).host.access = s.host.access := rfl
@[simp] theorem State.append_reserved (bytes : List Byte) (s : State) :
    (s.append bytes).host.reserved = s.host.reserved := rfl
@[simp] theorem State.replied_responses (frame : List Byte) (s : State) :
    (s.replied frame).host.responses = s.host.responses ++ frame := rfl
@[simp] theorem State.replied_requests (frame : List Byte) (s : State) :
    (s.replied frame).host.requests = s.host.requests := rfl
@[simp] theorem State.replied_access (frame : List Byte) (s : State) :
    (s.replied frame).host.access = s.host.access := rfl
@[simp] theorem State.replied_reserved (frame : List Byte) (s : State) :
    (s.replied frame).host.reserved = s.host.reserved := rfl
@[simp] theorem State.replied_flags (frame : List Byte) (s : State) :
    (s.replied frame).causes.flags = s.causes.flags ||| 0x0002 := rfl
@[simp] theorem State.replied_changes (frame : List Byte) (s : State) :
    (s.replied frame).causes.changes = s.causes.changes := rfl
@[simp] theorem State.popped_requests (rest : List ReqEntry) (s : State) :
    (s.popped rest).host.requests = rest := rfl
@[simp] theorem State.popped_responses (rest : List ReqEntry) (s : State) :
    (s.popped rest).host.responses = s.host.responses := rfl
@[simp] theorem State.popped_reserved (rest : List ReqEntry) (s : State) :
    (s.popped rest).host.reserved = s.host.reserved := rfl
@[simp] theorem State.popped_access (rest : List ReqEntry) (s : State) :
    (s.popped rest).host.access = s.host.access := rfl
@[simp] theorem State.defer_reserved (q : Request) (s : State) :
    (s.defer q).host.reserved = s.host.reserved + q.reservation := rfl
@[simp] theorem State.settle_reserved (q : Request) (tag : Byte) (r : Result) (data : List Byte) (s : State) :
    (s.settle q tag r data).host.reserved = s.host.reserved - q.reservation := rfl
@[simp] theorem State.settle_responses (q : Request) (tag : Byte) (r : Result) (data : List Byte) (s : State) :
    (s.settle q tag r data).host.responses = s.host.responses ++ responseFrame q.code tag r data := rfl
@[simp] theorem State.settle_requests (q : Request) (tag : Byte) (r : Result) (data : List Byte) (s : State) :
    (s.settle q tag r data).host.requests = s.host.requests := rfl

@[simp] theorem State.setReleases_releases (rs : List Release) (s : State) : (s.setReleases rs).releases = rs := rfl
@[simp] theorem State.setRelays_relays (rs : List Relay) (s : State) : (s.setRelays rs).relays = rs := rfl
@[simp] theorem State.setParams_params (p : Params) (s : State) : (s.setParams p).params = p := rfl
@[simp] theorem State.setAccess_access (a : Access) (s : State) : (s.setAccess a).host.access = a := rfl
@[simp] theorem State.setAccess_requests (a : Access) (s : State) :
    (s.setAccess a).host.requests = s.host.requests := rfl
@[simp] theorem State.enqueue_requests (e : ReqEntry) (s : State) :
    (s.enqueue e).host.requests = s.host.requests ++ [e] := rfl
@[simp] theorem State.setTxn_txn (t : Option Txn) (s : State) : (s.setTxn t).engine.txn = t := rfl
@[simp] theorem State.setTxn_state (t : Option Txn) (s : State) : (s.setTxn t).engine.state = s.engine.state := rfl
@[simp] theorem State.enterEngine_state (st : EngineState) (s : State) : (s.enterEngine st).engine.state = st := rfl
@[simp] theorem State.enterEngine_txn (st : EngineState) (s : State) :
    (s.enterEngine st).engine.txn = s.engine.txn := rfl
@[simp] theorem State.enterGuard_state (ended : Nat) (s : State) : (s.enterGuard ended).engine.state = .guarding := rfl
@[simp] theorem State.enterGuard_txn (ended : Nat) (s : State) :
    (s.enterGuard ended).engine.txn = s.engine.txn := rfl
@[simp] theorem State.enterGuard_guardFrom (ended : Nat) (s : State) :
    (s.enterGuard ended).engine.guardFrom = ended := rfl
@[simp] theorem State.enterGuard_clock (ended : Nat) (s : State) :
    (s.enterGuard ended).engine.clock = s.engine.clock := rfl
@[simp] theorem State.passTo_state (t : Nat) (s : State) : (s.passTo t).engine.state = s.engine.state := rfl
@[simp] theorem State.passTo_txn (t : Nat) (s : State) : (s.passTo t).engine.txn = s.engine.txn := rfl
@[simp] theorem State.passTo_reception (t : Nat) (s : State) :
    (s.passTo t).engine.reception = s.engine.reception := rfl
@[simp] theorem State.passTo_clock (t : Nat) (s : State) :
    (s.passTo t).engine.clock = max s.engine.clock t := rfl
@[simp] theorem State.passTo_inListen (t : Nat) (s : State) : (s.passTo t).inListen = s.inListen := rfl
@[simp] theorem State.beginTxn_state (t : Txn) (burst : Nat) (s : State) :
    (s.beginTxn t burst).engine.state = .send := rfl
@[simp] theorem State.beginTxn_txn (t : Txn) (burst : Nat) (s : State) :
    (s.beginTxn t burst).engine.txn = some t := rfl
@[simp] theorem State.setScheduler_ring (st : SchedulerState) (s : State) :
    (s.setScheduler st).poll.ring = s.poll.ring := rfl
@[simp] theorem State.setScheduler_state (st : SchedulerState) (s : State) :
    (s.setScheduler st).poll.state = st := rfl
@[simp] theorem State.setScheduler_pollPending (st : SchedulerState) (s : State) :
    (s.setScheduler st).poll.pending = s.poll.pending := rfl
@[simp] theorem State.namePoll_pollPending (n : Slot) (s : State) :
    (s.namePoll n).poll.pending = some { slot := n, inFlight := false } := rfl
@[simp] theorem State.namePoll_ring (n : Slot) (s : State) : (s.namePoll n).poll.ring = s.poll.ring := rfl

end Sys2Proof.Machine
end

