-- ==== Sys2Proof/Laws/Requests.lean ====
section
/-! SUPPORT. What the shared operations of the Dispatcher can do: the take of a request and the writing of its response. -/
namespace Sys2Proof.Machine

/-- Outside reset an event has its effect. -/
theorem whenRunning_running {f : State → State} {s : State} (h : s.pins.rstLow = false) :
    whenRunning f s = .next (f s) := by simp [whenRunning, h]

/-- While RST# is low no event has an effect. -/
theorem whenRunning_held {f : State → State} {s : State} (h : s.pins.rstLow = true) :
    whenRunning f s = .next s := by simp [whenRunning, h]

/-- Everything an event can do: nothing, or its effect on a part that is out of reset. -/
theorem whenRunning_cases {f : State → State} {s t : State} (h : whenRunning f s = .next t) :
    (s.pins.rstLow = true ∧ t = s) ∨ (s.pins.rstLow = false ∧ t = f s) := by
  cases hr : s.pins.rstLow
  · rw [whenRunning_running hr] at h
    exact .inr ⟨rfl, by injection h with h; exact h.symm⟩
  · rw [whenRunning_held hr] at h
    exact .inl ⟨rfl, by injection h with h; exact h.symm⟩

/-- Everything a take can do: nothing, or the head of its row leaves the Request FIFO and is handed on. -/
theorem takeHead_cases {row : Instr} {handle : ReqEntry → State → State} {s t : State}
    (h : takeHead row handle s = .next t) :
    t = s ∨ ∃ e rest, s.pins.rstLow = false ∧ s.host.requests = e :: rest ∧ e.row = row ∧ s.fits e = true ∧
      t = handle e (s.popped rest) := by
  rcases whenRunning_cases h with ⟨-, rfl⟩ | ⟨hr, ht⟩
  · exact .inl rfl
  · revert ht
    split
    · exact fun ht => .inl ht
    · rename_i e rest he
      split
      · rename_i hc
        exact fun ht => .inr ⟨e, rest, hr, he, hc.1, hc.2, ht⟩
      · exact fun ht => .inl ht

/-- A head whose space suffices is taken. -/
theorem fits_of_space {s : State} {e : ReqEntry} (h : e.maxResponse ≤ s.space) : s.fits e = true := by
  simp [State.fits, h]

/-- The take of a head of its row. -/
theorem takeHead_head {row : Instr} {handle : ReqEntry → State → State} {s : State} {e : ReqEntry}
    {rest : List ReqEntry} (hr : s.pins.rstLow = false) (he : s.host.requests = e :: rest) (hrow : e.row = row)
    (hf : s.fits e = true) : takeHead row handle s = .next (handle e (s.popped rest)) := by
  simp [takeHead, whenRunning_running hr, he, hrow, hf, State.popped]

/-- The take of a whole frame of its row: its tag and arguments are handed to the owner. -/
theorem takeRequest_takes {row : Instr} {handle : Byte → List Byte → State → State} {s : State} {bytes : List Byte}
    {rest : List ReqEntry} (h : s.Takes bytes rest) (hrow : (ReqEntry.frame bytes).row = row) :
    takeRequest row handle s = .next (handle (frameTag bytes) (frameArgs bytes) (s.popped rest)) :=
  takeHead_head h.1 h.2.1 hrow (fits_of_space h.2.2)

/-- An immediate answer appends one response frame and sets RESPONSE_READY. -/
theorem answer_eq_replied (q : Request) (tag : Byte) (r : Result) (data : List Byte) (s : State) :
    s.answer q tag r data = s.replied (responseFrame q.code tag r data) := rfl

/-- An answer under any code appends one response frame and sets RESPONSE_READY. -/
theorem respond_eq_replied (code tag : Byte) (r : Result) (data : List Byte) (s : State) :
    s.respond code tag r data = s.replied (responseFrame code tag r data) := rfl

/-- A deferred response is one frame appended, and its reservation ends. -/
theorem settle_eq_replied (q : Request) (tag : Byte) (r : Result) (data : List Byte) (s : State) :
    s.settle q tag r data =
      { s.replied (responseFrame q.code tag r data) with
        host := { s.host with
          responses := s.host.responses ++ responseFrame q.code tag r data
          reserved := s.host.reserved - q.reservation } } := rfl

/-- A response frame is four bytes and its data. -/
theorem responseFrame_length (code tag : Byte) (r : Result) (data : List Byte) :
    (responseFrame code tag r data).length = data.length + 4 := by simp [responseFrame]

/-- The request of each code of the catalogue is that request. -/
theorem ofCode_code (r : Request) : Request.ofCode r.code = some r := by cases r <;> rfl

/-- A frame of a catalogue request has the row of that request. -/
theorem row_of_code {k tag : Byte} {args : List Byte} (r : Request) :
    (ReqEntry.frame (k :: r.code :: tag :: args)).row = r.row args := by
  simp [ReqEntry.row, frameCode, frameArgs, ofCode_code]

end Sys2Proof.Machine
end

