-- ==== Sys2Proof/Laws/Commands.lean ====
section
/-! SUPPORT. One lemma for each command: what it does once its condition holds, so that no later proof unfolds `exec`. A request
row hands the tag and the arguments of the head to its handler; an event row runs its effect on a part that is out of reset. -/
namespace Sys2Proof.Machine

/-! ### Request rows -/

/-- The take of a frame of a catalogue request by its row. -/
theorem takeRequest_code {row : Instr} {handle : Byte → List Byte → State → State} {s : State} {k tag : Byte}
    {args : List Byte} {rest : List ReqEntry} (r : Request) (h : s.Takes (k :: r.code :: tag :: args) rest)
    (hrow : r.row args = row) : takeRequest row handle s = .next (handle tag args (s.popped rest)) :=
  takeRequest_takes h ((row_of_code r).trans hrow)

theorem exec_echo {s : State} {k tag : Byte} {args : List Byte} {rest : List ReqEntry}
    (h : s.Takes (k :: Request.echo.code :: tag :: args) rest) :
    exec .echo s = .next (echoRequest tag args (s.popped rest)) := takeRequest_code .echo h rfl

theorem exec_readEngine {s : State} {k tag : Byte} {args : List Byte} {rest : List ReqEntry}
    (h : s.Takes (k :: Request.readEngine.code :: tag :: args) rest) :
    exec .readEngine s = .next (readEngineRequest tag args (s.popped rest)) := takeRequest_code .readEngine h rfl

theorem exec_configure {s : State} {k tag : Byte} {args : List Byte} {rest : List ReqEntry}
    (h : s.Takes (k :: Request.configure.code :: tag :: args) rest) :
    exec .configure s = .next (configureRequest tag args (s.popped rest)) := takeRequest_code .configure h rfl

theorem exec_readConfig {s : State} {k tag : Byte} {args : List Byte} {rest : List ReqEntry}
    (h : s.Takes (k :: Request.readConfig.code :: tag :: args) rest) :
    exec .readConfig s = .next (readConfigRequest tag args (s.popped rest)) := takeRequest_code .readConfig h rfl

theorem exec_reset {s : State} {k tag : Byte} {args : List Byte} {rest : List ReqEntry}
    (h : s.Takes (k :: Request.reset.code :: tag :: args) rest) :
    exec .reset s = .next (resetRequest tag args (s.popped rest)) := takeRequest_code .reset h rfl

theorem exec_causeControl {s : State} {k tag : Byte} {args : List Byte} {rest : List ReqEntry}
    (h : s.Takes (k :: Request.causeControl.code :: tag :: args) rest) :
    exec .causeControl s = .next (causeControlRequest tag args (s.popped rest)) := takeRequest_code .causeControl h rfl

theorem exec_readCauses {s : State} {k tag : Byte} {args : List Byte} {rest : List ReqEntry}
    (h : s.Takes (k :: Request.readCauses.code :: tag :: args) rest) :
    exec .readCauses s = .next (readCausesRequest tag args (s.popped rest)) := takeRequest_code .readCauses h rfl

theorem exec_readChanges {s : State} {k tag : Byte} {args : List Byte} {rest : List ReqEntry}
    (h : s.Takes (k :: Request.readChanges.code :: tag :: args) rest) :
    exec .readChanges s = .next (readChangesRequest tag args (s.popped rest)) := takeRequest_code .readChanges h rfl

theorem exec_readSlot {s : State} {k tag : Byte} {args : List Byte} {rest : List ReqEntry}
    (h : s.Takes (k :: Request.readSlot.code :: tag :: args) rest) :
    exec .readSlot s = .next (readSlotRequest tag args (s.popped rest)) := takeRequest_code .readSlot h rfl

theorem exec_lookupIdentity {s : State} {k tag : Byte} {args : List Byte} {rest : List ReqEntry}
    (h : s.Takes (k :: Request.lookupIdentity.code :: tag :: args) rest) :
    exec .lookupIdentity s = .next (lookupIdentityRequest tag args (s.popped rest)) := takeRequest_code .lookupIdentity h rfl

theorem exec_lookupAddress {s : State} {k tag : Byte} {args : List Byte} {rest : List ReqEntry}
    (h : s.Takes (k :: Request.lookupAddress.code :: tag :: args) rest) :
    exec .lookupAddress s = .next (lookupAddressRequest tag args (s.popped rest)) := takeRequest_code .lookupAddress h rfl

theorem exec_setFields {s : State} {k tag : Byte} {args : List Byte} {rest : List ReqEntry}
    (h : s.Takes (k :: Request.setFields.code :: tag :: args) rest) :
    exec .setFields s = .next (setFieldsRequest tag args (s.popped rest)) := takeRequest_code .setFields h rfl

theorem exec_pin {s : State} {k tag : Byte} {args : List Byte} {rest : List ReqEntry}
    (h : s.Takes (k :: Request.pin.code :: tag :: args) rest) :
    exec .pin s = .next (pinRequest tag args (s.popped rest)) := takeRequest_code .pin h rfl

theorem exec_ringMove {s : State} {k tag : Byte} {args : List Byte} {rest : List ReqEntry}
    (h : s.Takes (k :: Request.ringMove.code :: tag :: args) rest) :
    exec .ringMove s = .next (ringMoveRequest tag args (s.popped rest)) := takeRequest_code .ringMove h rfl

theorem exec_setEnrolMode {s : State} {k tag : Byte} {args : List Byte} {rest : List ReqEntry}
    (h : s.Takes (k :: Request.setEnrolMode.code :: tag :: args) rest) :
    exec .setEnrolMode s = .next (setEnrolModeRequest tag args (s.popped rest)) := takeRequest_code .setEnrolMode h rfl

theorem exec_admitAdd {s : State} {k tag : Byte} {args : List Byte} {rest : List ReqEntry}
    (h : s.Takes (k :: Request.admitAdd.code :: tag :: args) rest) :
    exec .admitAdd s = .next (admitAddRequest tag args (s.popped rest)) := takeRequest_code .admitAdd h rfl

theorem exec_admitRemove {s : State} {k tag : Byte} {args : List Byte} {rest : List ReqEntry}
    (h : s.Takes (k :: Request.admitRemove.code :: tag :: args) rest) :
    exec .admitRemove s = .next (admitRemoveRequest tag args (s.popped rest)) := takeRequest_code .admitRemove h rfl

theorem exec_admitClear {s : State} {k tag : Byte} {args : List Byte} {rest : List ReqEntry}
    (h : s.Takes (k :: Request.admitClear.code :: tag :: args) rest) :
    exec .admitClear s = .next (admitClearRequest tag args (s.popped rest)) := takeRequest_code .admitClear h rfl

theorem exec_admitRead {s : State} {k tag : Byte} {args : List Byte} {rest : List ReqEntry}
    (h : s.Takes (k :: Request.admitRead.code :: tag :: args) rest) :
    exec .admitRead s = .next (admitReadRequest tag args (s.popped rest)) := takeRequest_code .admitRead h rfl

theorem exec_pollControl {s : State} {k tag : Byte} {args : List Byte} {rest : List ReqEntry}
    (h : s.Takes (k :: Request.pollControl.code :: tag :: args) rest) :
    exec .pollControl s = .next (pollControlRequest tag args (s.popped rest)) := takeRequest_code .pollControl h rfl

theorem exec_pollRound {s : State} {k tag : Byte} {args : List Byte} {rest : List ReqEntry}
    (h : s.Takes (k :: Request.pollRound.code :: tag :: args) rest) :
    exec .pollRound s = .next (pollRoundRequest tag args (s.popped rest)) := takeRequest_code .pollRound h rfl

theorem exec_censusStart {s : State} {k tag : Byte} {args : List Byte} {rest : List ReqEntry}
    (h : s.Takes (k :: Request.censusStart.code :: tag :: args) rest) :
    exec .censusStart s = .next (censusStartRequest tag args (s.popped rest)) := takeRequest_code .censusStart h rfl

theorem exec_censusStop {s : State} {k tag : Byte} {args : List Byte} {rest : List ReqEntry}
    (h : s.Takes (k :: Request.censusStop.code :: tag :: args) rest) :
    exec .censusStop s = .next (censusStopRequest tag args (s.popped rest)) := takeRequest_code .censusStop h rfl

theorem exec_censusStep {s : State} {k tag : Byte} {args : List Byte} {rest : List ReqEntry}
    (h : s.Takes (k :: Request.censusStep.code :: tag :: args) rest) :
    exec .censusStep s = .next (censusStepRequest tag args (s.popped rest)) := takeRequest_code .censusStep h rfl

theorem exec_censusStatus {s : State} {k tag : Byte} {args : List Byte} {rest : List ReqEntry}
    (h : s.Takes (k :: Request.censusStatus.code :: tag :: args) rest) :
    exec .censusStatus s = .next (censusStatusRequest tag args (s.popped rest)) := takeRequest_code .censusStatus h rfl

theorem exec_relay {s : State} {k tag : Byte} {args : List Byte} {rest : List ReqEntry}
    (h : s.Takes (k :: Request.relay.code :: tag :: args) rest) :
    exec .relay s = .next (relayRequest tag args (s.popped rest)) := takeRequest_code .relay h rfl

theorem exec_relayCancel {s : State} {k tag : Byte} {args : List Byte} {rest : List ReqEntry}
    (h : s.Takes (k :: Request.relayCancel.code :: tag :: args) rest) :
    exec .relayCancel s = .next (relayCancelRequest tag args (s.popped rest)) := takeRequest_code .relayCancel h rfl

theorem exec_enable {s : State} {k tag : Byte} {args : List Byte} {rest : List ReqEntry}
    (h : s.Takes (k :: Request.trunkControl.code :: tag :: args) rest) (h2 : args ≠ [2]) (h3 : args ≠ [3]) :
    exec .enable s = .next (enableRequest tag args (s.popped rest)) :=
  takeRequest_code .trunkControl h (by simp only [Request.row]; rw [if_neg h2, if_neg h3])

theorem exec_disable {s : State} {k tag : Byte} {rest : List ReqEntry}
    (h : s.Takes [k, Request.trunkControl.code, tag, 2] rest) :
    exec .disable s = .next (disableRequest tag [2] (s.popped rest)) := takeRequest_code .trunkControl h rfl

theorem exec_resetTrunk {s : State} {k tag : Byte} {rest : List ReqEntry}
    (h : s.Takes [k, Request.trunkControl.code, tag, 3] rest) :
    exec .resetTrunk s = .next (resetTrunkRequest tag [3] (s.popped rest)) := takeRequest_code .trunkControl h rfl

theorem exec_retireForced {s : State} {k tag : Byte} {args : List Byte} {rest : List ReqEntry}
    (h : s.Takes (k :: Request.retire.code :: tag :: args) rest) (hm : ¬(args.length = 2 ∧ args.getD 1 1 = 0)) :
    exec .retireForced s = .next (retireForcedRequest tag args (s.popped rest)) :=
  takeRequest_code .retire h (by simp only [Request.row, if_neg hm])

theorem exec_retireGraceful {s : State} {k tag b : Byte} {rest : List ReqEntry}
    (h : s.Takes [k, Request.retire.code, tag, b, 0] rest) :
    exec .retireGraceful s = .next (retireGracefulRequest tag [b, 0] (s.popped rest)) := takeRequest_code .retire h rfl

/-! ### Event rows -/

theorem exec_tick {s : State} (h : s.pins.rstLow = false) : exec .tick s = .next s.tickEvent :=
  whenRunning_running h

theorem exec_secondsStrobe {s : State} (h : s.pins.rstLow = false) : exec .secondsStrobe s = .next s.secondsEvent :=
  whenRunning_running h

theorem exec_paceExpiry {s : State} (h : s.pins.rstLow = false) : exec .paceExpiry s = .next s.paceEvent :=
  whenRunning_running h

theorem exec_solicitExpiry {s : State} (h : s.pins.rstLow = false) : exec .solicitExpiry s = .next s.solicitEvent :=
  whenRunning_running h

theorem exec_censusStepExpiry {s : State} (h : s.pins.rstLow = false) : exec .censusStepExpiry s = .next s.censusStepEvent :=
  whenRunning_running h

theorem exec_faultDrop {s : State} (h : s.pins.rstLow = false) : exec .faultDrop s = .next s.dropEvent :=
  whenRunning_running h

theorem exec_replyIdleTimeout {s : State} (h : s.pins.rstLow = false) : exec .replyIdleTimeout s = .next s.idleTimeout :=
  whenRunning_running h

theorem exec_replyWindowTimeout {s : State} (h : s.pins.rstLow = false) : exec .replyWindowTimeout s = .next s.windowTimeout :=
  whenRunning_running h

theorem exec_solicitListenEnd {s : State} (h : s.pins.rstLow = false) : exec .solicitListenEnd s = .next s.listenTimeout :=
  whenRunning_running h

theorem exec_characterReceived {s : State} {data : Byte} {flag parity stop : Bool} (h : s.pins.rstLow = false) :
    exec (.characterReceived data flag parity stop) s = .next (s.receiveCharacter (receivedCharacter data flag parity stop)) :=
  whenRunning_running h

theorem exec_startBit {s : State} {began : Nat} (h : s.pins.rstLow = false) :
    exec (.startBit began false) s = .next (s.startCharacter began) := by
  simp [exec, execStartBit, whenRunning_running h]

theorem exec_grant {s : State} (h : s.pins.rstLow = false) (hi : s.engine.state = .idle) :
    exec .grant s = .next s.arbitrate :=
  (whenRunning_running h).trans (by simp only [hi, if_true])

theorem exec_frameSent {s : State} {t : Txn} (h : s.pins.rstLow = false) (hs : s.engine.state = .send)
    (ht : s.engine.txn = some t) :
    exec .frameSent s = .next (
      if t.expected.isSome then s.enterEngine .listen
      else (s.passTo (t.frame.length * s.params.charTime)).endAttempt (t.frame.length * s.params.charTime) .good none) :=
  (whenRunning_running h).trans (by simp only [hs, ht, if_true])

theorem exec_trunkFaultFalling {s : State} (h : s.pins.rstLow = false) (hf : s.pins.fault = true)
    (hd : s.engine.dropDue = false) :
    exec .trunkFaultFalling s = .next (
      let u : State := { s with pins := { s.pins with fault := false }, engine := { s.engine with grace := .stopped } }
      if s.engine.state = .held then u.enterEngine .guarding else u) := by
  simp [exec, execTrunkFaultFalling, State.dropEvent, h, hf, hd]

end Sys2Proof.Machine
end

