-- ==== Sys2Proof/Laws/Table.lean ====
section
/-! SUPPORT. What the shared operations over the table and the Poll Ring can do: the slots and addresses that bytes name, a read
after a write, the searches of the table, and all that a walk can change. -/
namespace Sys2Proof.Machine

/-! ### Bytes that name slots and addresses -/

/-- A byte of 0..63 names that slot. -/
theorem slotOf_eq_some {b : Byte} {n : Slot} : slotOf b = some n ↔ b.toNat = n.val := by
  have hn : n.val < 64 := n.isLt
  unfold slotOf
  by_cases h : b.toNat < 64
  · rw [dif_pos h]
    constructor
    · intro hs
      injection hs with hs
      exact congrArg Fin.val hs
    · intro hv
      exact congrArg some (Fin.ext hv)
  · rw [dif_neg h]
    constructor
    · intro hs; cases hs
    · intro hv; omega

/-- A byte of 64 or more names no slot. -/
theorem slotOf_eq_none {b : Byte} : slotOf b = none ↔ 64 ≤ b.toNat := by
  unfold slotOf
  by_cases h : b.toNat < 64
  · rw [dif_pos h]; simp; omega
  · rw [dif_neg h]; simp; omega

/-- The byte of a number a byte has is that byte. -/
theorem byteOf_toNat {b : Byte} {m : Nat} (h : b.toNat = m) : byteOf m = b := by
  subst h; simp [byteOf]

/-- A byte of 1..126 names that address. -/
theorem addressOf_of_number {b : Byte} {a : Address} (h : b.toNat = addressNumber a) : addressOf b = some a := by
  have ha : a.val < 126 := a.isLt
  have hn : addressNumber a = a.val + 1 := rfl
  unfold addressOf addressOfNat
  rw [dif_pos (by omega)]
  exact congrArg some (Fin.ext (by show b.toNat - 1 = a.val; omega))

/-- A byte outside 1..126 names no address. -/
theorem addressOf_outside {b : Byte} (h : b.toNat < 1 ∨ 126 < b.toNat) : addressOf b = none := by
  unfold addressOf addressOfNat
  rw [dif_neg (by omega)]

/-! ### A read after a write -/

/-- A slot reads as written, and every other slot as before. -/
@[simp] theorem State.putLease_lease (n : Slot) (l : Option Lease) (s : State) (m : Slot) :
    (s.putLease n l).lease m = if m = n then l else s.lease m := by
  unfold State.putLease State.lease
  rcases eq_or_ne m n with rfl | h
  · simp
  · simp only [h, if_false]
    exact Vector.getElem_set_ne n.isLt m.isLt (fun e => h (Fin.ext e.symm))

/-- An address reads as written, and every other address as before. -/
@[simp] theorem State.putEntry_entry (a : Address) (e : AddrEntry) (s : State) (b : Address) :
    (s.putEntry a e).entry b = if b = a then e else s.entry b := by
  unfold State.putEntry State.entry
  rcases eq_or_ne b a with rfl | h
  · simp
  · simp only [h, if_false]
    exact Vector.getElem_set_ne a.isLt b.isLt (fun x => h (Fin.ext x.symm))

/-- Writing an address leaves every lease. -/
@[simp] theorem State.putEntry_lease (a : Address) (e : AddrEntry) (s : State) (n : Slot) :
    (s.putEntry a e).lease n = s.lease n := rfl

/-- Writing a slot leaves every address. -/
@[simp] theorem State.putLease_entry (n : Slot) (l : Option Lease) (s : State) (a : Address) :
    (s.putLease n l).entry a = s.entry a := rfl

/-- A slot carries the reasons written, and every other slot those it had. -/
theorem State.setReasons_changes (n : Slot) (r : BitVec 3) (s : State) (m : Slot) :
    (s.setReasons n r).causes.changes[m] = if m = n then r else s.causes.changes[m] := by
  unfold State.setReasons
  rcases eq_or_ne m n with rfl | h
  · simp
  · simp only [h, if_false]
    exact Vector.getElem_set_ne n.isLt m.isLt (fun x => h (Fin.ext x.symm))

/-- A slot handed over keeps the reasons it had and gains one; every other slot keeps its own (R211). -/
theorem State.handOver_changes (n : Slot) (r : Reason) (s : State) (m : Slot) :
    (s.handOver n r).causes.changes[m] = if m = n then s.causes.changes[m] ||| r.mask else s.causes.changes[m] := by
  have h := s.setReasons_changes n (s.causes.changes[n] ||| r.mask) m
  unfold State.handOver State.raise
  rw [show (s.setReasons n (s.causes.changes[n] ||| r.mask)).causes.changes[m] = _ from h]
  split
  · rename_i e; subst e; rfl
  · rfl

/-! ### Whole changes of a lease -/

/-- A new lease stands in its slot alone. -/
theorem State.createLease_lease (n : Slot) (l : Lease) (s : State) (m : Slot) :
    (s.createLease n l).lease m = if m = n then some l else s.lease m := by
  simp [State.createLease]

/-- A new lease holds its address alone. -/
theorem State.createLease_entry (n : Slot) (l : Lease) (s : State) (a : Address) :
    (s.createLease n l).entry a = if a = l.address then .held n else s.entry a := by
  simp [State.createLease]

/-- A changed lease keeps all but its state, and every other lease all of it. -/
theorem State.changeStatus_lease (n : Slot) (l : Lease) (st : LeaseStatus) (s : State) (m : Slot) :
    (s.changeStatus n l st).lease m = if m = n then some { l with status := st } else s.lease m := by
  simp [State.changeStatus]

/-- A freed slot is FREE, and every other lease stands. -/
theorem State.vacate_lease (n : Slot) (l : Lease) (q : Nat) (s : State) (m : Slot) :
    (s.vacate n l q).lease m = if m = n then none else s.lease m := by
  simp [State.vacate]

/-- The address of a freed lease takes the quarantine, and every other entry stands. -/
theorem State.vacate_entry (n : Slot) (l : Lease) (q : Nat) (s : State) (a : Address) :
    (s.vacate n l q).entry a = if a = l.address then quarantineEntry q else s.entry a := by
  simp [State.vacate]

/-- A slot that has left the ring is no member, and the others keep their order. -/
theorem State.leaveRing_slots (n : Slot) (s : State) :
    (s.leaveRing n).poll.slots = s.poll.slots.filter (fun m => decide (m ≠ n)) := by
  simp [State.leaveRing, Scheduler.slots, List.filter_map, Function.comp_def]

/-! ### The searches of the table -/

/-- The first of the numbers below `k` that has a property is the lowest. -/
theorem find_finRange {k : Nat} {p : Fin k → Bool} {n : Fin k} (hp : p n = true) (hm : ∀ m, m < n → p m = false) :
    (List.finRange k).find? p = some n := by
  cases hf : (List.finRange k).find? p with
  | none => rw [List.find?_eq_none] at hf; exact absurd hp (hf n (List.mem_finRange n))
  | some m =>
    rw [List.find?_eq_some_iff_getElem] at hf
    obtain ⟨hpm, i, hi, he, hlt⟩ := hf
    have hi' : i < k := by simpa using hi
    have hmi : m = ⟨i, hi'⟩ := by rw [← he]; simp
    rcases lt_trichotomy m n with h | h | h
    · exact absurd hpm (by simp [hm m h])
    · rw [h]
    · have hn : n.val < i := by rw [hmi] at h; exact h
      have := hlt n.val hn
      simp [hp] at this

/-- An identity that no lease holds is not found. -/
theorem findIdentity_none {s : State} {x : Identity} (h : ∀ n : Slot, ∀ l ∈ s.lease n, l.identity ≠ x) :
    s.findIdentity x = none := by
  unfold State.findIdentity
  rw [List.find?_eq_none]
  intro n _
  cases hl : s.lease n with
  | none => simp
  | some l => simpa using h n l hl

/-- The lease that holds an identity is found, when no two leases hold the same (R4). -/
theorem findIdentity_some {s : State} {x : Identity} {n : Slot} {l : Lease} (hu : s.IdentitiesUnique)
    (hl : s.lease n = some l) (hx : l.identity = x) : s.findIdentity x = some n := by
  unfold State.findIdentity
  refine find_finRange (by simp [hl, hx]) (fun m hm => ?_)
  cases hk : s.lease m with
  | none => rfl
  | some k =>
    by_cases he : k.identity = x
    · exact absurd (hu m n k hk l hl (he.trans hx.symm)) (ne_of_lt hm)
    · simpa using he

/-- With every slot in use there is no FREE slot. -/
theorem freeSlot_none {s : State} (h : ∀ n : Slot, s.lease n ≠ none) : s.freeSlot = none := by
  unfold State.freeSlot
  rw [List.find?_eq_none]
  intro n _
  simpa using h n

/-- The lowest FREE slot is found (R5). -/
theorem freeSlot_some {s : State} {n : Slot} (hn : s.lease n = none) (hm : ∀ m : Slot, m < n → s.lease m ≠ none) :
    s.freeSlot = some n :=
  find_finRange (by simp [hn]) (fun m h => by simpa [Option.isSome_iff_ne_none] using hm m h)

/-- A hint that names a FREE address is chosen (R11). -/
theorem chooseAddress_hint {s : State} {hint : Byte} {a : Address} (h : hint.toNat = addressNumber a)
    (hf : s.entry a = .free) : s.chooseAddress hint = some a := by
  simp [State.chooseAddress, addressOf_of_number h, hf]

/-- With a hint that names no FREE address the lowest FREE address is chosen (R11). -/
theorem chooseAddress_lowest {s : State} {hint : Byte} {a : Address}
    (h : ∀ b : Address, hint.toNat = addressNumber b → s.entry b ≠ .free) (hf : s.entry a = .free)
    (hm : ∀ b : Address, b < a → s.entry b ≠ .free) : s.chooseAddress hint = some a := by
  have hl : allAddresses.find? (fun b => s.entry b == .free) = some a :=
    find_finRange (by simp [hf]) (fun b hb => by simpa using hm b hb)
  unfold State.chooseAddress
  cases hh : addressOf hint with
  | none => simpa using hl
  | some b =>
    have hb : hint.toNat = addressNumber b := by
      unfold addressOf addressOfNat at hh
      split at hh
      · injection hh with hh; rw [← hh]; simp [addressNumber]; omega
      · cases hh
    simp only [h b hb, if_false]
    exact hl

/-- With no FREE address none is chosen (R11). -/
theorem chooseAddress_none {s : State} {hint : Byte} (h : ∀ a : Address, s.entry a ≠ .free) :
    s.chooseAddress hint = none := by
  have hl : allAddresses.find? (fun b => s.entry b == .free) = none := by
    rw [List.find?_eq_none]
    intro b _
    simpa using h b
  unfold State.chooseAddress
  cases addressOf hint with
  | none => simpa using hl
  | some b => simp only [h b, if_false]; exact hl

end Sys2Proof.Machine
end

