-- ==== Sys2Proof/Laws/Walk.lean ====
section
/-! SUPPORT. All that the walk over the Poll Ring can change (R104 to R108): the cadence counts of leases, the visited marks,
the pending poll, the scheduler's state, the round count, and the ROUND_DONE flag. -/
namespace Sys2Proof.Machine

/-- `t` differs from `s` at most where a walk writes: the ring keeps its members in order, and each lease all but its
cadence_count. -/
def State.WalksTo (s t : State) : Prop :=
  ∃ (slots : Vector (Option Lease) 64) (ring : List RingMember) (pending : Option PendingPoll) (state : SchedulerState)
    (rounds flags : Half) (counts : Slot → Nat),
    t = { s with
      table := { s.table with slots := slots }
      poll := { s.poll with ring := ring, pending := pending, state := state, rounds := rounds }
      causes := { s.causes with flags := flags } } ∧
    ring.map (fun m => m.slot) = s.poll.slots ∧
    ∀ n : Slot, slots[n] = (s.lease n).map (fun l => { l with cadenceCount := counts n })

namespace State.WalksTo

/-- Changing nothing is such a change. -/
theorem refl (s : State) : s.WalksTo s := by
  refine ⟨s.table.slots, s.poll.ring, s.poll.pending, s.poll.state, s.poll.rounds, s.causes.flags, s.countOf, rfl, rfl, ?_⟩
  intro n
  show s.lease n = _
  cases h : s.lease n with
  | none => rfl
  | some l => simp [State.countOf, h]

/-- Two such changes make one. -/
theorem trans {s t u : State} (h : s.WalksTo t) (k : t.WalksTo u) : s.WalksTo u := by
  obtain ⟨sl, ri, pe, st, ro, fl, co, rfl, hr, hl⟩ := h
  obtain ⟨sl', ri', pe', st', ro', fl', co', rfl, hr', hl'⟩ := k
  refine ⟨sl', ri', pe', st', ro', fl', co', rfl, hr'.trans hr, ?_⟩
  intro n
  rw [hl' n]
  show (sl[n]).map _ = _
  rw [hl n]
  cases s.lease n <;> rfl

theorem setCadenceCount {s : State} {n : Slot} {l : Lease} (h : s.lease n = some l) (c : Nat) :
    s.WalksTo (s.setCadenceCount n l c) := by
  refine ⟨(s.setCadenceCount n l c).table.slots, s.poll.ring, s.poll.pending, s.poll.state, s.poll.rounds, s.causes.flags,
    fun m => if m = n then c else s.countOf m, rfl, rfl, ?_⟩
  intro m
  show (s.putLease n (some { l with cadenceCount := c })).lease m = _
  rw [State.putLease_lease]
  by_cases e : m = n
  · subst e; simp [h]
  · simp only [e, if_false]
    cases hm : s.lease m with
    | none => rfl
    | some k => simp [State.countOf, hm]

/-- A change of the scheduler alone that keeps the ring's members in order. -/
theorem ofPoll (s : State) (ring : List RingMember) (pending : Option PendingPoll) (state : SchedulerState)
    (rounds flags : Half) (h : ring.map (fun m => m.slot) = s.poll.slots) :
    s.WalksTo { s with
      poll := { s.poll with ring := ring, pending := pending, state := state, rounds := rounds }
      causes := { s.causes with flags := flags } } := by
  obtain ⟨sl, -, -, -, -, -, co, -, -, hl⟩ := refl s
  refine ⟨s.table.slots, ring, pending, state, rounds, flags, s.countOf, rfl, h, ?_⟩
  intro n
  show s.lease n = _
  cases hn : s.lease n with
  | none => rfl
  | some l => simp [State.countOf, hn]

theorem markVisited (n : Slot) (s : State) : s.WalksTo (s.markVisited n) := by
  refine ofPoll s _ s.poll.pending s.poll.state s.poll.rounds s.causes.flags ?_
  rw [List.map_map]
  exact List.map_congr_left (fun m _ => by simp only [Function.comp]; split <;> rfl)

theorem clearMarks (s : State) : s.WalksTo s.clearMarks := by
  refine ofPoll s _ s.poll.pending s.poll.state s.poll.rounds s.causes.flags ?_
  rw [List.map_map]; rfl

theorem namePoll (n : Slot) (s : State) : s.WalksTo (s.namePoll n) :=
  ofPoll s s.poll.ring _ s.poll.state s.poll.rounds s.causes.flags rfl

theorem setScheduler (st : SchedulerState) (s : State) : s.WalksTo (s.setScheduler st) :=
  ofPoll s s.poll.ring s.poll.pending st s.poll.rounds s.causes.flags rfl

theorem countRound (s : State) : s.WalksTo s.countRound :=
  ofPoll s s.poll.ring s.poll.pending s.poll.state _ _ rfl

/-- The visit of a list of members. -/
theorem visit (ms : List RingMember) (s : State) : s.WalksTo (s.visit ms).1 := by
  induction ms generalizing s with
  | nil => exact refl s
  | cons m ms ih =>
    unfold State.visit
    split
    · exact ih s
    · split
      · exact (markVisited m.slot s).trans (ih _)
      · rename_i l hl
        split
        · exact (setCadenceCount hl l.cadence).trans (namePoll m.slot _)
        · exact ((setCadenceCount hl _).trans (markVisited m.slot _)).trans (ih _)

/-- A walk, whatever its bound. -/
theorem walk (fuel : Nat) (s : State) : s.WalksTo (s.walk fuel) := by
  induction fuel generalizing s with
  | zero =>
    have h := visit s.poll.ring s
    unfold State.walk
    split <;> rename_i t e <;> rw [e] at h
    · exact h
    · exact (h.trans (countRound t)).trans (setScheduler .wait _)
  | succ fuel ih =>
    have h := visit s.poll.ring s
    unfold State.walk
    split <;> rename_i t e <;> rw [e] at h
    · exact h
    · split
      · exact ((h.trans (countRound t)).trans (clearMarks _)).trans ((setScheduler .round _).trans (ih _))
      · exact (h.trans (countRound t)).trans (setScheduler .wait _)

/-- A walk step. -/
theorem walkStep (s : State) : s.WalksTo s.walkStep := walk s.roundBound s

/-- The walk step that ends a change, when one is due. -/
theorem pollSettle (s : State) : s.WalksTo s.pollSettle := by
  unfold State.pollSettle
  split
  · exact walkStep s
  · exact refl s

/-- The beginning of a round. -/
theorem beginRound (s : State) : s.WalksTo s.beginRound :=
  ((clearMarks s).trans (setScheduler .round _)).trans (walkStep _)

/-- A slot joins the ring: it stands at the tail, and then at most a round begins. -/
theorem joinRing (n : Slot) (s : State) :
    State.WalksTo { s with poll := { s.poll with ring := s.poll.ring ++ [⟨n, false⟩] } } (s.joinRing n) := by
  unfold State.joinRing
  dsimp only
  split
  · exact beginRound _
  · exact refl _

/-- What such a change leaves alone, block by block. -/
theorem frame {s t : State} (h : s.WalksTo t) :
    t.pins = s.pins ∧ t.host = s.host ∧ t.table.map = s.table.map ∧ t.enrol = s.enrol ∧ t.census = s.census ∧
    t.releases = s.releases ∧ t.relays = s.relays ∧ t.engine = s.engine ∧ t.timing = s.timing ∧
    t.causes.enables = s.causes.enables ∧ t.causes.changes = s.causes.changes ∧ t.pending = s.pending ∧
    t.poll.slots = s.poll.slots ∧ t.poll.mode = s.poll.mode ∧ t.poll.detached = s.poll.detached := by
  obtain ⟨sl, ri, pe, st, ro, fl, co, rfl, hr, -⟩ := h
  exact ⟨rfl, rfl, rfl, rfl, rfl, rfl, rfl, rfl, rfl, rfl, rfl, rfl, hr, rfl, rfl⟩

/-- Each lease keeps everything but its cadence_count. -/
theorem lease {s t : State} (h : s.WalksTo t) :
    ∃ counts : Slot → Nat, ∀ n : Slot, t.lease n = (s.lease n).map (fun l => { l with cadenceCount := counts n }) := by
  obtain ⟨sl, ri, pe, st, ro, fl, co, rfl, -, hl⟩ := h
  exact ⟨co, hl⟩

end State.WalksTo

end Sys2Proof.Machine
end

