-- ==== Sys2Proof/WellFormed.lean ====
section
/-! DEFINITION. Which commands are well formed. A byte operand is a byte by its type, the four bits of a received character
are bits by theirs, and `began` of START_BIT counts REFCLK periods and may be any number: the types of `Instr` leave no
ill-formed command to refuse, and every arm says so (log entry 3). -/
namespace Sys2Proof

/-- Every command that can be written down is well formed: its operands' types are their whole ranges. -/
def Instr.wellFormed : Instr → Bool
  | .accessByte _ | .requestByte _ | .characterReceived _ _ _ _ | .startBit _ _ => true
  | .rstAssert | .rstRise | .csFall | .csRise | .responseByteRead | .badFrame | .unknownRequest | .echo | .readEngine
  | .configure | .readConfig | .enable | .disable | .resetTrunk | .reset | .causeControl | .readCauses | .readChanges
  | .readSlot | .lookupIdentity | .lookupAddress | .setFields | .pin | .retireForced | .retireGraceful | .ringMove
  | .setEnrolMode | .admitAdd | .admitRemove | .admitClear | .admitRead | .pollControl | .pollRound | .censusStart
  | .censusStop | .censusStep | .censusStatus | .relay | .relayCancel | .tick | .secondsStrobe | .paceExpiry
  | .solicitExpiry | .censusStepExpiry | .trunkFaultRising | .trunkFaultFalling | .faultDrop | .grant | .frameSent
  | .replyIdleTimeout | .replyWindowTimeout | .solicitListenEnd | .guardEnd | .responseByteBegin => true

end Sys2Proof
end

