-- ==== Sys2Proof/Tests/Slice0.lean ====
section
/-! SUPPORT. Tests of the model against the manual's worked examples and tables, and for each statement with hypotheses a
witness: a small state and operands that meet them, clause by clause, at the ends of their ranges. -/
namespace Sys2Proof.Tests
open Sys2Proof.Machine
set_option Elab.async false

/-! ### Small states -/

/-- The address of a number of 1..126. -/
def addr (n : Nat) : Address := Fin.ofNat 126 (n - 1)

/-- A lease as a JOIN makes it. -/
def lease (st : LeaseStatus) (x : Identity) (a : Nat) : Lease := newLease st x (addr a) (some 0x21) .joined

/-- A state with one more lease, its address HELD by it, and its place in the ring or in the Offer List. -/
def holding (n : Slot) (l : Lease) (s : State) : State :=
  let t := (s.putLease n (some l)).putEntry l.address (.held n)
  match l.status with
  | .bound _ _ => { t with poll := { t.poll with ring := t.poll.ring ++ [⟨n, false⟩] } }
  | .suspect _ _ => { t with poll := { t.poll with ring := t.poll.ring ++ [⟨n, false⟩] } }
  | .offered _ => { t with enrol := { t.enrol with offers := t.enrol.offers ++ [⟨n, 0⟩] } }
  | _ => t

/-- The reset state with its Engine in a state. -/
def engineIn (st : EngineState) : State := { State.reset with engine := { State.reset.engine with state := st } }

/-- One lease of each state: slot 0 BOUND at 10, 1 SUSPECT at 11, 2 OFFERED at 12, 3 RELEASING at 13, 4 LOST at 14,
5 RESERVED at 15; address 30 QUARANTINED; a relay to slot 0 waits; the Engine is IDLE. -/
def world : State :=
  let s := holding 0 (lease (.bound 120 0) 0xA0 10) (engineIn .idle)
  let s := holding 1 { lease (.suspect 70 3) 0xA1 11 with cadence := 3, cadenceCount := 2 } s
  let s := holding 2 (lease (.offered .fresh) 0xA2 12) s
  let s := holding 3 (lease (.releasing 60) 0xA3 13) s
  let s := holding 4 (lease (.lost 40) 0xA4 14) s
  let s := holding 5 (lease .reserved 0xA5 15) s
  let s := s.putEntry (addr 30) (.quarantined 8)
  { s with
    releases := [⟨addr 13, .retire 3 0x50, false⟩]
    relays := [⟨0x60, .slot 0, true, none, [1, 2], false⟩]
    host := { s.host with reserved := 29 } }

/-- One BOUND lease in slot 3 at address 22, as in the example of 2.6, with the Engine in a state. -/
def single (st : EngineState) : State := holding 3 (lease (.bound 100 0) 0x00A1C4002B17 22) (engineIn st)

/-- A state whose Request FIFO holds one frame. -/
def asking (bytes : List Byte) (s : State) : State := { s with host := { s.host with requests := [.frame bytes] } }

/-- A state with one entry waiting and so many bytes of response space left. -/
def pressed (e : ReqEntry) (space : Nat) : State :=
  { State.reset with host := { State.reset.host with requests := [e], responses := List.replicate (512 - space) 0 } }

/-- A state in an access. -/
def inAccess (a : Access) : State :=
  { State.reset with
    pins := { State.reset.pins with csLow := true }
    host := { State.reset.host with access := a } }

/-- An access with as many markers in the Request FIFO. -/
def filled (n : Nat) (a : Access) : State :=
  { inAccess a with host := { (inAccess a).host with requests := List.replicate n (.marker 0) } }

/-- Every slot in use. -/
def fullTable : State :=
  { State.reset with table := { State.reset.table with
      slots := Vector.ofFn (fun n : Slot => some (lease .reserved (BitVec.ofNat 48 n.val) (n.val + 1))) } }

/-- Every address withheld. -/
def fullPool : State :=
  { State.reset with table := { State.reset.table with map := Vector.replicate 126 (.quarantined 5) } }

/-- The state a command leaves. -/
def after (c : Instr) (s : State) : State :=
  match exec c s with
  | .next t => t
  | _ => s

/-- Whether a command leads to a next state. -/
def completes (c : Instr) (s : State) : Bool :=
  match exec c s with
  | .next _ => true
  | _ => false

theorem next_after {c : Instr} {s : State} (h : completes c s = true) : exec c s = .next (after c s) := by
  unfold completes at h
  unfold after
  split at h
  · rename_i t e; rw [e]
  · cases h

/-- A received character without errors. -/
def char (data : Byte) (flag : Bool) : Instr := .characterReceived data flag (oddParity data flag) true

/-- A character as reception keeps it. -/
def rx (data : Byte) (flag : Bool) : RxChar := ⟨data, flag, false, false⟩

/-- A transaction in flight in a state. -/
def flying (t : Txn) (s : State) : State := { s with engine := { s.engine with txn := some t } }

/-- The POLL of the example of 2.6, first attempt of two. -/
def poll26 : Txn :=
  { kind := .poll, slot := some 3, identity := some 0x00A1C4002B17, address := .station (addr 22), tag := none,
    frame := [0x16, 0x11, 0x1E, 0xBB], expected := some ⟨.station (addr 22), .status, none⟩, attempt := 1,
    maxAttempts := 2, errorMap := 0, lastOutcome := none, reply := none }

/-- A SOLICIT in flight. -/
def solicit : Txn :=
  { kind := .solicit, slot := none, identity := none, address := .newcomer, tag := none, frame := solicitFrame 0,
    expected := some ⟨.newcomer, .join, none⟩, attempt := 1, maxAttempts := 1, errorMap := 0, lastOutcome := none,
    reply := none }

/-- A PROBE of an address. -/
def probe (a : Nat) : Txn :=
  { solicit with kind := .probe, address := .station (addr a), frame := probeFrame (addr a),
                 expected := some ⟨.station (addr a), .answer, none⟩ }

/-! ### Witnesses of the hypotheses of the statements -/

theorem witness_EmptyQueueStepTakesADueEventOrCountsAPeriod :
    State.reset.pending = [] ∧ (State.held ⟨true, false, false⟩ []).pending = [] ∧
    (State.held ⟨true, false, false⟩ []).pins.rstLow = true ∧ State.reset.pins.rstLow = false ∧
    world.pending = [] ∧ world.ownEvent = some .grant ∧ State.reset.ownEvent = none ∧
    State.reset.timing.prescaler + 1 < State.reset.params.refclkKhz ∧
    (let s : State := { State.reset with timing := { State.reset.timing with prescaler := 15999 } }
     s.ownEvent = none ∧ s.params.refclkKhz ≤ s.timing.prescaler + 1) := by decide +kernel

theorem witness_EmptyQueueStepTakesADueEventOrCountsAPeriod_trunk :
    ((flying poll26 (single .send)).engine.state = .send ∧ (flying poll26 (single .send)).engine.txn = some poll26) ∧
    ((flying poll26 (single .listen)).engine.state = .listen ∧ poll26.kind ≠ .solicit) ∧
    ((flying solicit (engineIn .listen)).engine.txn = some solicit ∧ solicit.kind = .solicit) ∧
    (flying poll26 (single .receive)).engine.state = .receive ∧ (single .guarding).engine.state = .guarding ∧
    (single .off).engine.state = .off ∧ (single .idle).engine.state = .idle ∧ (single .held).engine.state = .held := by
  decide +kernel

/-- A tick's event and the trunk's stand together; a head fits or does not; work waits in IDLE, in another state, or not at all. -/
theorem witness_EmptyQueueStepTakesADueEventOrCountsAPeriod_order :
    (let s := { flying poll26 (single .send) with
       engine := { (flying poll26 (single .send)).engine with clock := 80016 }
       timing := { State.reset.timing with seconds := 1000, pace := 0, solicit := 0, censusStep := 0 } }
     1000 ≤ s.timing.seconds ∧ s.trunkDue = some .frameSent ∧ s.ownEvent = some .secondsStrobe ∧
     ({ s with timing := State.reset.timing }).ownEvent = some .frameSent) ∧
    (let s := asking [5, 0x01, 0x41, 8, 9] world
     s.trunkDue = none ∧ (ReqEntry.frame [5, 0x01, 0x41, 8, 9]).maxResponse ≤ s.space ∧ s.ownEvent = some .echo) ∧
    (let s := pressed (.frame [5, 0x01, 0x41, 8, 9]) 5
     ¬(ReqEntry.frame [5, 0x01, 0x41, 8, 9]).maxResponse ≤ s.space ∧ s.engine.state ≠ .idle ∧ s.ownEvent = none) ∧
    (world.host.requests = [] ∧ world.engine.state = .idle ∧ world.enrol.offers ≠ [] ∧ world.ownEvent = some .grant) ∧
    ((single .idle).enrol.offers = [] ∧ (single .idle).releases = [] ∧ (single .idle).relays = [] ∧
      (single .idle).census.pending = none ∧ (single .idle).poll.pending = none ∧
      (single .idle).enrol.solicitDue = false ∧ (single .idle).ownEvent = none) := by decide +kernel

theorem witness_ResetPinHoldsAndStartsThePart :
    State.reset.pins.rstLow = false ∧ (State.held ⟨true, true, true⟩ []).pins.rstLow = true := by decide

theorem witness_NothingMovesWhileRstIsLow :
    (State.held ⟨true, false, false⟩ []).pins.rstLow = true ∧ Instr.csFall ≠ .rstRise := by decide

theorem witness_AccessesBeginAndEnd :
    State.reset.pins.csLow = false ∧ State.reset.host.access = .ready ∧
    (inAccess .select).pins.csLow = true ∧ (inAccess .select).host.access = .select ∧
    (∀ n got, (inAccess .select).host.access ≠ .write (.inFrame n got)) ∧
    (inAccess (.write (.inFrame 4 [4]))).pins.csLow = true ∧
    (inAccess (.write (.inFrame 4 [4]))).host.access = .write (.inFrame 4 [4]) :=
  ⟨rfl, rfl, rfl, rfl, fun _ _ h => (by cases h), rfl, rfl⟩

theorem witness_RequestBytesAreAssembled :
    (inAccess .select).pins.rstLow = false ∧ (inAccess .select).host.access = .select ∧
    (filled 253 (.write .expectLength)).host.access = .write .expectLength ∧
    256 - requestBytes (filled 253 (.write .expectLength)).host.requests = 3 ∧
    256 - requestBytes (filled 255 (.write .expectLength)).host.requests = 1 ∧
    256 - requestBytes (filled 256 (.write .expectLength)).host.requests = 0 ∧
    (3 ≤ (3 : Byte).toNat ∧ (3 : Byte).toNat ≤ 24) ∧ (3 ≤ (24 : Byte).toNat ∧ 3 < (24 : Byte).toNat) ∧
    ((2 : Byte).toNat < 3 ∧ 24 < (25 : Byte).toNat) ∧
    (inAccess (.write (.inFrame 3 [3]))).host.access = .write (.inFrame 3 [3]) ∧ [(3 : Byte)].length + 1 < 3 ∧
    (inAccess (.write (.inFrame 3 [3, 2]))).host.access = .write (.inFrame 3 [3, 2]) ∧ [(3 : Byte), 2].length + 1 = 3 ∧
    (inAccess (.write (.skip 1))).host.access = .write (.skip 1) ∧ 1 < 2 ∧
    (inAccess (.write (.skip 2))).host.access = .write (.skip 2) ∧
    (inAccess (.write .discard)).host.access = .write .discard := by decide +kernel

/-- A read of the responses with these bytes waiting. -/
def reading (out : Option ResponseByte) (spent : Bool) (bytes : List Byte) : State :=
  { inAccess (.readResponse out spent) with
    host := { (inAccess (.readResponse out spent)).host with responses := bytes } }

theorem witness_ResponseBytesLeaveFromTheHead :
    (reading none false [4]).host.access = .readResponse none false ∧ (reading none false [4]).host.responses = [4] ∧
    (reading none false []).host.responses = [] ∧
    (reading none true []).host.access = .readResponse none true ∧
    (reading (some (.head 4)) false [4]).host.access = .readResponse (some (.head 4)) false ∧
    (reading (some .filler) true []).host.access = .readResponse (some .filler) true ∧
    (inAccess (.readStatus [9, 8])).host.access = .readStatus [9, 8] ∧
    (inAccess (.readStatus [])).host.access = .readStatus [] ∧
    (inAccess .select).host.access = .select ∧ (inAccess .ignore).host.access = .ignore ∧
    (inAccess (.write .discard)).host.access = .write .discard ∧ 7 < 8 ∧ (List.replicate 7 true).length < 8 := by decide

theorem witness_DispatcherTakesAndRefuses :
    (pressed (.marker 2) 5).host.requests = [.marker 2] ∧ 5 ≤ (pressed (.marker 2) 5).space ∧
    (pressed (.frame [3, 0x07, 1]) 4).Takes [3, 0x07, 1] [] ∧ Request.ofCode 0x07 = none ∧
    (Request.all.all (fun r => decide (r.code ≠ 0x07)) = true) ∧
    (pressed (.frame [3, 0x10, 1]) 36).Takes [3, 0x10, 1] [] ∧ Request.readSlot.takesCount 0 = false ∧
    (pressed (.frame [5, 0x28, 1, 0, 1]) 18).Takes [5, 0x28, 1, 0, 1] [] ∧ Request.relay.takesCount 2 = false ∧
    Request.relay.takesCount 12 = false ∧ Request.echo.takesCount 22 = false ∧
    (pressed (.marker 2) 4).host.requests = [.marker 2] ∧ (pressed (.marker 2) 4).space < (ReqEntry.marker 2).maxResponse ∧
    (∀ k tag, ReqEntry.marker 2 ≠ .frame [k, 0x06, tag]) ∧
    (pressed (.frame [4, 0x06, 1, 0]) 3).space < (ReqEntry.frame [4, 0x06, 1, 0]).maxResponse := by
  unfold State.Takes
  refine ⟨?_, ?_, ?_, ?_, ?_, ?_, ?_, ?_, ?_, ?_, ?_, ?_, ?_, fun _ _ h => (by cases h), ?_⟩ <;> decide +kernel

theorem witness_EchoReturnsItsBytes :
    (asking [3, 0x01, 7] world).Takes [3, 0x01, 7] [] ∧ ([] : List Byte).length ≤ 21 ∧
    (asking (24 :: 0x01 :: 7 :: List.replicate 21 9) world).Takes (24 :: 0x01 :: 7 :: List.replicate 21 9) [] ∧
    (List.replicate 21 (9 : Byte)).length ≤ 21 := by unfold State.Takes; decide +kernel

theorem witness_ResetRequestResetsEveryBlock :
    (pressed (.frame [3, 0x06, 9]) 0).pins.rstLow = false ∧
    (pressed (.frame [3, 0x06, 9]) 0).host.requests = [.frame [3, 0x06, 9]] := by decide

theorem witness_CauseControlSetsEnablesAndClearsFlags :
    (asking [8, 0x08, 1, 0x0F, 0, 0x05, 0, 0] world).Takes [8, 0x08, 1, 0x0F, 0, 0x05, 0, 0] [] ∧
    (asking [8, 0x08, 1, 0x0F, 0, 0x05, 0, 1] world).Takes [8, 0x08, 1, 0x0F, 0, 0x05, 0, 1] [] ∧
    (asking [8, 0x08, 1, 0x0F, 0, 0x05, 0, 2] world).Takes [8, 0x08, 1, 0x0F, 0, 0x05, 0, 2] [] ∧
    (0 : Byte).toNat ≤ 1 ∧ (1 : Byte).toNat ≤ 1 ∧ 1 < (2 : Byte).toNat := by unfold State.Takes; decide +kernel

theorem witness_ReadCausesAndReadEngineReport :
    (asking [3, 0x09, 1] world).Takes [3, 0x09, 1] [] ∧ (asking [3, 0x02, 1] world).Takes [3, 0x02, 1] [] := by
  unfold State.Takes; decide +kernel

/-- A Change Set with slots 2, 5 and 9, as in the example of 10.5. -/
def changed (s : State) : State := ((s.setReasons 2 1).setReasons 5 2).setReasons 9 5

/-- What a READ_CHANGES takes and what it leaves. -/
def splits (s : State) (m : Byte) (taken left : List Slot) : Prop :=
  (taken ++ left).Pairwise (fun a b => a < b) ∧ (∀ n : Slot, n ∈ taken ++ left ↔ s.causes.changes[n] ≠ 0) ∧
  taken.length ≤ m.toNat ∧ (taken.length < m.toNat → left = [])

theorem witness_ReadChangesTakesTheLowestMembers :
    (asking [4, 0x0A, 1, 1] (changed world)).Takes [4, 0x0A, 1, 1] [] ∧
    splits (asking [4, 0x0A, 1, 1] (changed world)) 1 [2] [5, 9] ∧
    splits (asking [4, 0x0A, 1, 8] (changed world)) 8 [2, 5, 9] [] ∧ splits (asking [4, 0x0A, 1, 8] world) 8 [] [] ∧
    (0 : Byte).toNat < 1 ∧ 1 ≤ (1 : Byte).toNat ∧ (8 : Byte).toNat ≤ 8 ∧ 8 < (9 : Byte).toNat := by
  unfold State.Takes splits; decide +kernel

theorem witness_ReadSlotReturnsTheRecord :
    (asking [4, 0x10, 1, 0] world).Takes [4, 0x10, 1, 0] [] ∧ 64 ≤ (64 : Byte).toNat ∧
    (63 : Byte).toNat = (63 : Slot).val ∧ world.lease 63 = none ∧ (0 : Byte).toNat = (0 : Slot).val ∧
    world.lease 0 = some (lease (.bound 120 0) 0xA0 10) := by unfold State.Takes; decide +kernel

theorem witness_LookupsReportLeasesAndAddresses :
    world.IdentitiesUnique ∧ (asking [9, 0x11, 1, 0xA4, 0, 0, 0, 0, 0] world).Takes [9, 0x11, 1, 0xA4, 0, 0, 0, 0, 0] [] ∧
    world.lease 4 = some (lease (.lost 40) 0xA4 14) ∧ (∀ n : Slot, ∀ l ∈ world.lease n, l.identity ≠ 0xFF) ∧
    (asking [4, 0x12, 1, 126] world).Takes [4, 0x12, 1, 126] [] ∧ (0 : Byte).toNat < 1 ∧ 126 < (127 : Byte).toNat ∧
    (1 : Byte).toNat = addressNumber (addr 1) ∧ (126 : Byte).toNat = addressNumber (addr 126) ∧
    world.entry (addr 126) = .free ∧ world.entry (addr 30) = .quarantined 8 ∧ world.entry (addr 14) = .held 4 := by
  unfold State.Takes State.IdentitiesUnique; decide +kernel

theorem witness_ReadConfigReturnsConsecutiveValues :
    (asking [5, 0x04, 1, 1, 16] world).Takes [5, 0x04, 1, 1, 16] [] ∧
    (1 ≤ (1 : Byte).toNat ∧ (16 : Byte).toNat ≤ 16 ∧ (1 : Byte).toNat + (16 : Byte).toNat ≤ 23) ∧
    ((22 : Byte).toNat ≤ 22 ∧ 1 ≤ (1 : Byte).toNat ∧ (22 : Byte).toNat + (1 : Byte).toNat ≤ 23) ∧
    ¬((22 : Byte).toNat + (2 : Byte).toNat ≤ 23) ∧ ¬(1 ≤ (0 : Byte).toNat) ∧ ¬((17 : Byte).toNat ≤ 16) := by
  unfold State.Takes; decide +kernel

theorem witness_ConfigureWritesAParameterInItsRange :
    (asking [6, 0x03, 1, 0x13, 0, 1] world).Takes [6, 0x03, 1, 0x13, 0, 1] [] ∧
    (0 : Byte).toNat < 1 ∧ 22 < (23 : Byte).toNat ∧ Param.all[0]? = some .refclkKhz ∧
    Param.all[21]? = some .relayBurst ∧ (0x16 : Byte).toNat = 21 + 1 ∧
    world.params.admits 3999 .refclkKhz = false ∧ world.params.admits 4000 .refclkKhz = true ∧
    world.canWrite .refclkKhz = false ∧ State.reset.canWrite .refclkKhz = true ∧
    world.params.admits 256 .windowSize = true ∧ world.params.admits 17 .windowSize = false ∧
    world.canWrite .windowSize = true := by unfold State.Takes; decide +kernel

/-- A DISABLE waits. -/
def disabling (s : State) : State := { s with engine := { s.engine with pendingDisable := some 0x33 } }

theorem witness_EnableAndDisableMoveTheEngine :
    (asking [4, 0x05, 1, 4] world).Takes [4, 0x05, 1, 4] [] ∧ (asking [4, 0x05, 1, 0] world).Takes [4, 0x05, 1, 0] [] ∧
    (asking [4, 0x05, 1, 1] (disabling world)).Takes [4, 0x05, 1, 1] [] ∧
    (asking [4, 0x05, 1, 1] world).Takes [4, 0x05, 1, 1] [] ∧ world.engine.state ≠ .off ∧
    (asking [4, 0x05, 1, 1] State.reset).Takes [4, 0x05, 1, 1] [] ∧ State.reset.engine.state = .off ∧
    (asking [4, 0x05, 1, 2] (disabling world)).Takes [4, 0x05, 1, 2] [] ∧
    (disabling world).engine.pendingDisable.isSome = true ∧ world.engine.pendingDisable = none ∧
    (asking [4, 0x05, 1, 2] State.reset).Takes [4, 0x05, 1, 2] [] ∧
    (asking [4, 0x05, 1, 2] world).Takes [4, 0x05, 1, 2] [] ∧ world.engine.state = .idle ∧
    (asking [4, 0x05, 1, 2] (engineIn .held)).Takes [4, 0x05, 1, 2] [] ∧
    (asking [4, 0x05, 1, 2] (engineIn .guarding)).Takes [4, 0x05, 1, 2] [] := by unfold State.Takes; decide +kernel

theorem witness_ResetTrunkSettlesAllTrunkWork :
    (asking [4, 0x05, 1, 3] world).Takes [4, 0x05, 1, 3] [] ∧ (asking [4, 0x05, 1, 3] world).MapMatches ∧
    (asking [4, 0x05, 1, 3] world).OffersMatch ∧ (asking [4, 0x05, 1, 3] world).ReleasesMatch := by
  unfold State.Takes State.MapMatches State.OffersMatch State.ReleasesMatch; decide +kernel

theorem witness_SetFieldsChangesCadenceAndLabel :
    (asking [8, 0x13, 1, 1, 8, 1, 5, 6] world).Takes [8, 0x13, 1, 1, 8, 1, 5, 6] [] ∧ 64 ≤ (64 : Byte).toNat ∧
    8 < (9 : Byte).toNat ∧ 2 < (3 : Byte).toNat ∧ (63 : Byte).toNat = (63 : Slot).val ∧ world.lease 63 = none ∧
    (1 : Byte).toNat = (1 : Slot).val ∧ (8 : Byte).toNat ≤ 8 ∧ (2 : Byte).toNat ≤ 2 ∧
    (world.lease 1).isSome = true := by unfold State.Takes; decide +kernel

theorem witness_PinReservesTheLowestFreeSlot :
    (asking [10, 0x14, 1, 0xFF, 0, 0, 0, 0, 0, 126] world).Takes [10, 0x14, 1, 0xFF, 0, 0, 0, 0, 0, 126] [] ∧
    (asking [10, 0x14, 1, 0xFF, 0, 0, 0, 0, 0, 126] world).IdentitiesUnique ∧
    (0 : Byte).toNat < 1 ∧ 126 < (127 : Byte).toNat ∧ (126 : Byte).toNat = addressNumber (addr 126) ∧
    (1 : Byte).toNat = addressNumber (addr 1) ∧
    world.lease 5 = some (lease .reserved 0xA5 15) ∧ (∀ n : Slot, ∀ l ∈ world.lease n, l.identity ≠ 0xFF) ∧
    world.entry (addr 15) = .held 5 ∧ world.entry (addr 30) = .quarantined 8 ∧ world.entry (addr 126) = .free ∧
    world.lease 6 = none ∧ (∀ m : Slot, m < 6 → world.lease m ≠ none) := by
  unfold State.Takes State.IdentitiesUnique; decide +kernel

theorem witness_PinReservesTheLowestFreeSlot_full :
    fullTable.IdentitiesUnique ∧ fullTable.entry (addr 126) = .free ∧ (∀ n : Slot, fullTable.lease n ≠ none) ∧
    (∀ n : Slot, ∀ l ∈ fullTable.lease n, l.identity ≠ 0xFF) := by
  unfold State.IdentitiesUnique; decide +kernel

theorem witness_ForcedRetireFreesTheLease :
    (asking [5, 0x15, 1, 0, 1] world).Takes [5, 0x15, 1, 0, 1] [] ∧ (1 : Byte) ≠ 0 ∧ 64 ≤ (64 : Byte).toNat ∧
    (asking [5, 0x15, 1, 0, 2] world).Takes [5, 0x15, 1, 0, 2] [] ∧ (2 : Byte) ≠ 1 ∧
    (63 : Byte).toNat = (63 : Slot).val ∧ world.lease 63 = none ∧ isReleasing (world.lease 3) = true ∧
    (∀ n : Slot, n < 6 → n ≠ 3 → (world.lease n).isSome = true ∧ isReleasing (world.lease n) = false) := by
  unfold State.Takes; decide +kernel

/-- A Release Queue of `n` address-only entries from address 40 on. -/
def queued (n : Nat) (s : State) : State :=
  { s with releases := (List.range n).map (fun i => ⟨addr (40 + i), .clash, false⟩) }

/-- An address-only entry for the address of slot 0. -/
def clashAt10 (flying : Bool) (s : State) : State := { s with releases := [⟨addr 10, .clash, flying⟩] }

theorem witness_GracefulRetireStartsTheRelease :
    (asking [5, 0x15, 1, 0, 0] world).Takes [5, 0x15, 1, 0, 0] [] ∧ 64 ≤ (64 : Byte).toNat ∧
    (63 : Byte).toNat = (63 : Slot).val ∧ world.lease 63 = none ∧ isReleasing (world.lease 3) = true ∧
    (∀ n : Slot, n = 2 ∨ n = 4 ∨ n = 5 → isBound (world.lease n) = false ∧ isReleasing (world.lease n) = false) ∧
    world.lease 0 = some (lease (.bound 120 0) 0xA0 10) ∧ (lease (.bound 120 0) 0xA0 10).status = .bound 120 0 ∧
    (clashAt10 true world).releases = [] ++ ⟨addr 10, .clash, true⟩ :: [] ∧
    (clashAt10 false world).releases = [] ++ ⟨addr 10, .clash, false⟩ :: [] ∧
    (∀ e ∈ (queued 16 world).releases, e.address ≠ addr 10) ∧ 16 ≤ (queued 16 world).releases.length ∧
    (∀ e ∈ (queued 15 world).releases, e.address ≠ addr 10) ∧ (queued 15 world).releases.length < 16 := by
  unfold State.Takes; decide +kernel

theorem witness_SetEnrolModeChangesTheMode :
    (asking [4, 0x18, 1, 2] world).Takes [4, 0x18, 1, 2] [] ∧ EnrolMode.opened.code = 2 ∧ EnrolMode.closed.code = 0 ∧
    2 < (3 : Byte).toNat := by unfold State.Takes; decide +kernel

/-- An Admission List. -/
def admitting (xs : List Identity) (s : State) : State := { s with enrol := { s.enrol with admission := xs } }

theorem witness_AdmissionListRequests :
    (asking [9, 0x19, 1, 6, 0, 0, 0, 0, 0] world).Takes [9, 0x19, 1, 6, 0, 0, 0, 0, 0] [] ∧
    (asking [9, 0x1A, 1, 6, 0, 0, 0, 0, 0] world).Takes [9, 0x1A, 1, 6, 0, 0, 0, 0, 0] [] ∧
    (asking [3, 0x1B, 1] world).Takes [3, 0x1B, 1] [] ∧ (asking [4, 0x1C, 1, 31] world).Takes [4, 0x1C, 1, 31] [] ∧
    (admitting [5, 6] world).enrol.admission = [5] ++ 6 :: [] ∧ (6 : Identity) ∉ [(5 : Identity)] ∧
    (let full := admitting ((List.range 32).map (BitVec.ofNat 48)) world
     (99 : Identity) ∉ full.enrol.admission ∧ 32 ≤ full.enrol.admission.length ∧
     full.enrol.admission[31]? = some 31) ∧
    (let most := admitting ((List.range 31).map (BitVec.ofNat 48)) world
     (99 : Identity) ∉ most.enrol.admission ∧ most.enrol.admission.length < 32 ∧
     most.enrol.admission.length ≤ (31 : Byte).toNat) ∧
    31 < (32 : Byte).toNat ∧ (31 : Byte).toNat ≤ 31 := by unfold State.Takes; decide +kernel

theorem witness_RingMovePlacesTheMember :
    (asking [5, 0x16, 1, 0, 0xFF] world).Takes [5, 0x16, 1, 0, 0xFF] [] ∧ 64 ≤ (64 : Byte).toNat ∧ (64 : Byte) ≠ 0xFF ∧
    world.poll.slots = [0, 1] ∧ (5 : Slot) ∉ world.poll.slots ∧ (5 : Byte).toNat = (5 : Slot).val ∧
    (0 : Slot) ∈ world.poll.slots ∧ world.poll.slots.Nodup ∧ (⟨0, false⟩ : RingMember) ∈ world.poll.ring ∧
    world.poll.ring.filter (fun r => r.slot ≠ 0) = [] ++ (⟨1, false⟩ : RingMember) :: [] ∧
    (1 : Byte).toNat = (1 : Slot).val := by unfold State.Takes; decide +kernel

/-- The scheduler in a mode and a state. -/
def scheduling (mode : PollMode) (st : SchedulerState) (s : State) : State :=
  { s with poll := { s.poll with mode := mode, state := st } }

theorem witness_PollRequestsSetTheModeAndBeginRounds :
    (asking [4, 0x20, 1, 3] world).Takes [4, 0x20, 1, 3] [] ∧ 3 < (4 : Byte).toNat ∧ PollMode.single.code = 3 ∧
    PollMode.off = world.poll.mode ∧ (scheduling .paced .wait world).poll.mode ≠ .off ∧
    PollMode.paced ≠ world.poll.mode ∧
    ((scheduling .paced .wait world).poll.state = .wait ∧ (scheduling .paced .wait world).poll.ring ≠ [] ∧
      PollMode.continuous ≠ (scheduling .paced .wait world).poll.mode) ∧
    (asking [3, 0x21, 1] world).Takes [3, 0x21, 1] [] ∧ world.poll.mode ≠ .single ∧
    (scheduling .single .round world).poll.mode = .single ∧ (scheduling .single .round world).poll.state = .round ∧
    (scheduling .single .wait world).poll.state = .wait := by unfold State.Takes; decide +kernel

/-- Whether a walk passes a member. -/
def passes (s : State) (r : RingMember) : Bool := r.visited || decide (2 ≤ s.countOf r.slot)

/-- CONTINUOUS with the poll of slot 0 done and slot 1 not due: the walk step ends the round and begins the next. -/
def markedRing (s : State) : State :=
  { scheduling .continuous .round s with poll := { (scheduling .continuous .round s).poll with
      ring := [⟨0, true⟩, ⟨1, false⟩] } }

theorem witness_WalkStepNamesTheFirstDueMember :
    world.RingMatches ∧ world.poll.ring = [] ++ ⟨0, false⟩ :: [⟨1, false⟩] ∧ passes world ⟨0, false⟩ = false ∧
    (let s : State := { world with poll := { world.poll with ring := [⟨1, false⟩, ⟨0, false⟩] } }
     s.RingMatches ∧ s.poll.ring = [⟨1, false⟩] ++ ⟨0, false⟩ :: [] ∧ [(⟨1, false⟩ : RingMember)].all (passes s) = true ∧
     passes s ⟨0, false⟩ = false) ∧
    (let s : State := { world with poll := { world.poll with ring := [⟨0, true⟩, ⟨1, false⟩] } }
     s.RingMatches ∧ s.poll.ring.all (passes s) = true ∧ s.poll.mode ≠ .continuous) ∧
    (State.reset.RingMatches ∧ State.reset.poll.ring = []) ∧
    (let s := markedRing world
     s.RingMatches ∧ s.poll.ring.all (passes s) = true ∧ s.poll.mode = .continuous ∧ s.poll.ring ≠ []) ∧
    ((scheduling .paced .round world).poll.state = .round ∧ (scheduling .paced .round world).poll.pending = none ∧
      (scheduling .paced .wait world).poll.state ≠ .round) := by unfold State.RingMatches; decide +kernel

theorem witness_ContinuousRoundsReachADueMember :
    (let s := scheduling .continuous .round world
     s.RingMatches ∧ s.LeasesInRange ∧ s.poll.mode = .continuous ∧ s.poll.ring ≠ [] ∧ s.poll.pending = none ∧
     ∀ r ∈ s.poll.ring, r.visited = false) ∧
    (let s := scheduling .continuous .round
       (holding 3 { lease (.bound 100 0) 0xA1 11 with cadence := 8, cadenceCount := 8 } State.reset)
     s.RingMatches ∧ s.LeasesInRange ∧ s.poll.ring ≠ [] ∧ s.countOf 3 = 7 + 1) := by
  unfold State.RingMatches State.LeasesInRange; decide +kernel

/-- One member of cadence 8, visited in the round in hand: eight rounds end before its poll. -/
def slowRing : State :=
  let s := scheduling .continuous .round
    (holding 3 { lease (.bound 100 0) 0xA1 11 with cadence := 8, cadenceCount := 8 } State.reset)
  { s with poll := { s.poll with ring := [⟨3, true⟩] } }

theorem witness_ContinuousRoundsReachADueMember_marks :
    slowRing.RingMatches ∧ slowRing.LeasesInRange ∧ slowRing.poll.mode = .continuous ∧ slowRing.poll.ring ≠ [] ∧
    slowRing.poll.pending = none ∧ slowRing.walkStep.poll.rounds = 8 := by
  unfold State.RingMatches State.LeasesInRange; decide +kernel

/-- The census in a state and a mode, with a probe of address 20 when it runs. -/
def sweeping (st : CensusState) (mode : CensusMode) (s : State) : State :=
  { s with census := { s.census with
      state := st, mode := mode, pending := if st = .running then some ⟨addr 20, false⟩ else none } }

/-- The host gives the steps. -/
def hostSteps (s : State) : State := s.setParams { s.params with stepSource := 1 }

theorem witness_CensusRequestsStartStopAndStep :
    (asking [6, 0x24, 1, 1, 126, 3] world).Takes [6, 0x24, 1, 1, 126, 3] [] ∧ (0 : Byte).toNat < 1 ∧
    126 < (127 : Byte).toNat ∧ 3 < (4 : Byte).toNat ∧ (1 : Byte).toNat = addressNumber (addr 1) ∧
    (126 : Byte).toNat = addressNumber (addr 126) ∧ CensusMode.stepped.code = 3 ∧ world.census.state = .idle ∧
    ((sweeping .running .onceR world).census.state ≠ .idle ∧ (sweeping .running .onceR world).census.mode = .onceR) ∧
    ((sweeping .waitStep .continuous world).census.state ≠ .idle ∧
      (sweeping .waitStep .continuous world).census.mode ≠ .onceR) ∧
    (asking [3, 0x25, 1] world).Takes [3, 0x25, 1] [] ∧ (asking [3, 0x26, 1] world).Takes [3, 0x26, 1] [] ∧
    world.params.stepSource = 0 ∧ (hostSteps world).params.stepSource ≠ 0 ∧
    (sweeping .waitStep .stepped (hostSteps world)).census.mode = .stepped ∧
    (sweeping .running .stepped (hostSteps world)).census.stepPending = false ∧
    (asking [3, 0x27, 1] world).Takes [3, 0x27, 1] [] := by unfold State.Takes; decide +kernel

/-- Whether the sweep probes an address, in the words of the statement. -/
def probeable (s : State) (a : Address) : Prop :=
  match s.entry a with
  | .held n => ∃ l q, s.lease n = some l ∧ l.status = .lost q
  | _ => True

/-- The census about to consider the addresses `from_` to `last`. -/
def sweepFrom (from_ last : Nat) (s : State) : State :=
  { s with census := { s.census with cursor := addr from_, first := addr from_, last := addr last } }

/-- The census after the probe of the last address of its range. -/
def pastLast (mode : CensusMode) (s : State) : State :=
  { s with census := { s.census with mode := mode, cursor := s.census.first, beyond := true, probeNamed := true } }

theorem notProbeable {s : State} {a : Address} {n : Slot} {l : Lease} (he : s.entry a = .held n)
    (hl : s.lease n = some l) (hs : l.status.code ≠ 5) : ¬probeable s a := by
  unfold probeable
  rw [he]
  rintro ⟨k, q, hk, hq⟩
  rw [hl] at hk
  injection hk with hk
  subst hk
  exact hs (by rw [hq]; rfl)

/-- From 10 the sweep skips 10 to 13 and names 14, the last of the range; the range 12 to 13 it skips whole; and the first
address of the whole range is probed at once. -/
theorem witness_CensusWalkFollowsTheSweepOrder :
    (sweepFrom 10 14 world).census.beyond = false ∧
    ((sweepFrom 10 14 world).census.last - (sweepFrom 10 14 world).census.cursor : Fin 126).val = 4 ∧
    probeable (sweepFrom 10 14 world) (addr 14) ∧
    (∀ e : Nat, e < 4 → ¬probeable (sweepFrom 10 14 world) (addr 10 + Fin.ofNat 126 e)) ∧
    ((sweepFrom 12 13 world).census.last - (sweepFrom 12 13 world).census.cursor : Fin 126).val = 1 ∧
    (∀ d : Nat, d ≤ 1 → ¬probeable (sweepFrom 12 13 world) (addr 12 + Fin.ofNat 126 d)) ∧
    probeable world (addr 1) ∧
    (∀ m : CensusMode, (pastLast m (sweepFrom 10 14 world)).census.beyond = true ∧
      (pastLast m (sweepFrom 10 14 world)).census.mode = m ∧
      (pastLast m (sweepFrom 10 14 world)).census.probeNamed = true) ∧
    (sweepFrom 10 14 world).census.probeNamed = false := by
  refine ⟨by decide +kernel, by decide +kernel, ?_, fun e he => ?_, by decide +kernel, fun d hd => ?_, ?_,
    fun _ => ⟨rfl, rfl, rfl⟩, by decide +kernel⟩
  · have he : (sweepFrom 10 14 world).entry (addr 14) = .held 4 := by decide +kernel
    have hl : (sweepFrom 10 14 world).lease 4 = some (lease (.lost 40) 0xA4 14) := by decide +kernel
    unfold probeable
    rw [he]
    exact ⟨_, 40, hl, rfl⟩
  · rcases e with _ | _ | _ | _ | e
    · exact notProbeable (n := 0) (l := lease (.bound 120 0) 0xA0 10) (by decide +kernel) (by decide +kernel) (by decide)
    · exact notProbeable (n := 1) (l := { lease (.suspect 70 3) 0xA1 11 with cadence := 3, cadenceCount := 2 })
        (by decide +kernel) (by decide +kernel) (by decide)
    · exact notProbeable (n := 2) (l := lease (.offered .fresh) 0xA2 12) (by decide +kernel) (by decide +kernel)
        (by decide)
    · exact notProbeable (n := 3) (l := lease (.releasing 60) 0xA3 13) (by decide +kernel) (by decide +kernel)
        (by decide)
    · omega
  · rcases d with _ | _ | d
    · exact notProbeable (n := 2) (l := lease (.offered .fresh) 0xA2 12) (by decide +kernel) (by decide +kernel)
        (by decide)
    · exact notProbeable (n := 3) (l := lease (.releasing 60) 0xA3 13) (by decide +kernel) (by decide +kernel)
        (by decide)
    · omega
  · have he : world.entry (addr 1) = .free := by decide +kernel
    unfold probeable
    rw [he]
    trivial

/-- A relay of a tag. -/
def relayOf (tag : Byte) (target : RelayTarget) (flying : Bool) : Relay := ⟨tag, target, true, none, [], flying⟩

/-- A Relay Queue. -/
def relaying (es : List Relay) (s : State) : State := { s with relays := es }

theorem witness_RelayQueueTakesAndWithdrawsRelays :
    (asking [6, 0x28, 1, 0, 1, 3] world).Takes [6, 0x28, 1, 0, 1, 3] [] ∧
    (asking (14 :: 0x28 :: 1 :: 0xFE :: 0 :: 0xFF :: List.replicate 8 9) world).Takes
      (14 :: 0x28 :: 1 :: 0xFE :: 0 :: 0xFF :: List.replicate 8 9) [] ∧
    ((List.replicate 8 (9 : Byte)).length ≤ 8 ∧ (63 : Byte).toNat < 64 ∧ (1 : Byte).toNat ≤ 1 ∧ (3 : Byte).toNat ≤ 3) ∧
    ¬((64 : Byte).toNat < 64 ∨ (64 : Byte) = 0xFE) ∧ ¬(2 : Byte).toNat ≤ 1 ∧ ¬((4 : Byte).toNat ≤ 3 ∨ (4 : Byte) = 0xFF) ∧
    isBound (world.lease 0) = true ∧ isBound (world.lease 4) = false ∧
    8 ≤ (relaying (List.replicate 8 (relayOf 1 .broadcast false)) world).relays.length ∧
    (relaying (List.replicate 7 (relayOf 1 .broadcast false)) world).relays.length < 8 ∧
    (asking [4, 0x29, 1, 9] world).Takes [4, 0x29, 1, 9] [] ∧
    (relaying [relayOf 9 .broadcast true, relayOf 9 (.slot 0) false] world).relays =
      [relayOf 9 .broadcast true] ++ relayOf 9 (.slot 0) false :: [] ∧
    (∀ x ∈ [relayOf 9 .broadcast true], x.tag = 9 → x.inFlight = true) ∧
    (∃ x ∈ [relayOf 9 .broadcast true], x.tag = 9) ∧ (∀ x ∈ world.relays, x.tag ≠ 9) := by
  unfold State.Takes; decide +kernel

/-- A state with the time counts given. -/
def timed (seconds pace solicit step : Nat) (s : State) : State :=
  { s with timing := { s.timing with seconds := seconds, pace := pace, solicit := solicit, censusStep := step } }

/-- The pin high and the grace timer in a state. -/
def faulted (g : Grace) (s : State) : State :=
  { s with pins := { s.pins with fault := true }, engine := { s.engine with grace := g } }

/-- The grace timer spent and its fault drop due. -/
def dropping (s : State) : State :=
  { faulted .spent s with engine := { (faulted .spent s).engine with dropDue := true } }

theorem witness_TickCountsTheTimers :
    (timed 999 1 1 1 State.reset).pins.rstLow = false ∧ (timed 999 1 1 1 State.reset).timing.seconds < 1000 ∧
    0 < (timed 999 1 1 1 State.reset).timing.pace ∧ 0 < (timed 999 1 1 1 State.reset).timing.solicit ∧
    0 < (timed 999 1 1 1 State.reset).timing.censusStep ∧
    (timed 999 1 1 1 State.reset).engine.dropDue = false ∧
    (faulted (.running 1) (timed 999 1 1 1 State.reset)).engine.dropDue = false := by decide

/-- Every event of a tick stands untaken; and then one after another has been taken. -/
def due0 : State := timed 1000 0 0 0 (dropping world)
def due1 : State := after .secondsStrobe due0
def due2 : State := after .paceExpiry due1
def due3 : State := after .solicitExpiry due2
def due4 : State := after .censusStepExpiry due3

theorem witness_TickCountsTheTimers_due :
    ∃ a b c d e : State, exec .secondsStrobe due0 = .next a ∧ exec .paceExpiry a = .next b ∧
      exec .solicitExpiry b = .next c ∧ exec .censusStepExpiry c = .next d ∧ exec .faultDrop d = .next e :=
  ⟨due1, due2, due3, due4, after .faultDrop due4, next_after (by decide +kernel), next_after (by decide +kernel),
    next_after (by decide +kernel), next_after (by decide +kernel), next_after (by decide +kernel)⟩

theorem witness_SecondsStrobeCountsDown :
    world.pins.rstLow = false ∧ (timed 999 1 1 1 world).timing.seconds < 1000 ∧
    1000 ≤ (timed 1000 1 1 1 world).timing.seconds ∧ (timed 1000 1 1 1 world).MapMatches := by
  unfold State.MapMatches; decide +kernel

theorem witness_ExpiriesReloadAndReachTheirOwners :
    world.pins.rstLow = false ∧ 0 < (timed 0 1 1 1 world).timing.pace ∧ (timed 0 0 0 0 world).timing.pace = 0 ∧
    (scheduling .paced .wait (timed 0 0 0 0 world)).poll.mode = .paced ∧
    (scheduling .paced .wait (timed 0 0 0 0 world)).poll.state = .wait ∧
    (scheduling .paced .round (timed 0 0 0 0 world)).poll.state = .round ∧ world.poll.mode ≠ .paced ∧
    0 < (timed 0 1 1 1 world).timing.solicit ∧ (timed 0 0 0 0 world).timing.solicit = 0 ∧
    0 < (timed 0 1 1 1 world).timing.censusStep ∧ (timed 0 0 0 0 world).timing.censusStep = 0 ∧
    ((sweeping .waitStep .stepped (timed 0 0 0 0 world)).census.mode = .stepped ∧
      (sweeping .waitStep .stepped (timed 0 0 0 0 world)).params.stepSource = 0) ∧
    (sweeping .waitStep .continuous (timed 0 0 0 0 world)).census.mode = .continuous ∧
    (sweeping .running .stepped (timed 0 0 0 0 world)).census.state = .running ∧
    world.census.state = .idle ∧
    (sweeping .running .continuous (timed 0 0 0 0 world)).census.state = .running ∧
    (sweeping .waitStep .stepped (hostSteps (timed 0 0 0 0 world))).params.stepSource ≠ 0 := by decide +kernel

theorem witness_FaultEdgesMoveTheEngine :
    world.pins.rstLow = false ∧ world.pins.fault = false ∧ State.reset.engine.state = .off ∧
    (world.engine.state ≠ .off ∧ world.engine.txn = none) ∧
    ((flying poll26 (single .send)).engine.state ≠ .off ∧ (flying poll26 (single .send)).engine.txn = some poll26) ∧
    ((flying solicit (engineIn .listen)).engine.state ≠ .off ∧
      (flying solicit (engineIn .listen)).engine.txn = some solicit ∧ solicit.kind = .solicit) ∧
    (faulted .spent (engineIn .held)).pins.fault = true ∧ (faulted .spent (engineIn .held)).engine.dropDue = false ∧
    (dropping (engineIn .held)).pins.fault = true ∧ (dropping (engineIn .held)).engine.dropDue = true := by decide +kernel

theorem witness_FaultEdgesMoveTheEngine_due : ∃ u, exec .faultDrop (dropping (engineIn .held)) = .next u :=
  ⟨_, next_after (by decide +kernel)⟩

theorem witness_FaultDropEndsUnheldLeases :
    (faulted (.running 1) world).pins.rstLow = false ∧ (faulted (.running 1) world).engine.dropDue = false ∧
    (dropping world).pins.rstLow = false ∧ (dropping world).engine.dropDue = true ∧
    (dropping world).MapMatches ∧ (dropping world).RingMatches ∧ (dropping world).ReleasesMatch := by
  unfold State.MapMatches State.RingMatches State.ReleasesMatch; decide +kernel

/-- Work at the sources that come after the offers and the releases. -/
def working (es : List Relay) (pollOf : Option Slot) (probeAt : Option Nat) (due : Bool) (s : State) : State :=
  { s with
    releases := [], relays := es
    enrol := { s.enrol with offers := [], solicitDue := due }
    poll := { s.poll with pending := pollOf.map (fun n => ⟨n, false⟩) }
    census := { s.census with pending := probeAt.map (fun a => ⟨addr a, false⟩) } }

/-- The relay-burst count. -/
def burst (n : Nat) (s : State) : State := { s with engine := { s.engine with burst := n } }

theorem witness_GrantFollowsTheGrantOrder :
    world.pins.rstLow = false ∧ world.engine.state = .idle ∧
    world.enrol.offers = ⟨2, 0⟩ :: [] ∧ world.lease 2 = some (lease (.offered .fresh) 0xA2 12) ∧
    (let s : State := { world with enrol := { world.enrol with offers := [] } }
     s.releases = ⟨addr 13, .retire 3 0x50, false⟩ :: []) ∧
    (let s := burst 4 (working [] (some 0) none false world)
     s.params.relayBurst ≤ s.engine.burst ∧ s.poll.pending = some ⟨0, false⟩ ∧ (s.lease 0).isSome = true) ∧
    (let s := burst 3 (working [relayOf 9 .broadcast false] (some 0) none false world)
     s.engine.burst < s.params.relayBurst ∧ s.relays = relayOf 9 .broadcast false :: []) ∧
    (let s := working [relayOf 9 (.slot 0) false] none none false world
     s.relays = relayOf 9 (.slot 0) false :: [] ∧ s.lease 0 = some (lease (.bound 120 0) 0xA0 10) ∧
     s.poll.pending = none) ∧
    (let s := working [relayOf 9 (.slot 4) false] none none false world
     s.relays = relayOf 9 (.slot 4) false :: [] ∧ isBound (s.lease 4) = false) ∧
    (working [] none (some 20) false world).census.pending = some ⟨addr 20, false⟩ ∧
    (working [] (some 0) none false world).poll.pending = some ⟨0, false⟩ ∧
    (working [] (some 0) none false world).census.pending = none ∧
    (working [] none none true world).enrol.solicitDue = true ∧
    (working [] none none false world).enrol.solicitDue = false := by decide +kernel

theorem witness_CharactersAndFramesFollowTheTables :
    (flying poll26 (single .send)).engine.state = .send ∧ (flying poll26 (single .send)).engine.txn = some poll26 ∧
    world.engine.state ≠ .send ∧ State.reset.params.oddStep = 1 ∧
    ({ State.reset.params with oddStep := 0 } : Params).oddStep = 0 := by decide +kernel

theorem witness_JudgementGivesTheFirstFailedCheck :
    (⟨0x96, true, true, true⟩ : RxChar).parityError = true ∧
    ((⟨0x96, true, false, true⟩ : RxChar).parityError = false ∧ (⟨0x96, true, false, true⟩ : RxChar).framingError = true) ∧
    ((rx 0x96 true).parityError = false ∧ (rx 0x96 true).framingError = false) ∧
    ((rx 0x98 false).data.toNat % 16 = 8 ∧ (rx 0x99 false).data.toNat % 16 = 9) ∧
    (∃ c ∈ [rx 0x96 true, ⟨0x92, false, true, false⟩], c.parityError = true) ∧
    (let cs := [rx 0x96 true, ⟨0x92, false, false, true⟩]
     (∀ c ∈ cs, c.parityError = false) ∧ ∃ c ∈ cs, c.framingError = true) ∧
    9 ≤ (0x99 : Byte).toNat % 16 ∧ (0x98 : Byte).toNat % 16 ≤ 8 ∧
    (let cs := [rx 0x96 true, rx 0x92 false, rx 0x41 false, rx 0x03 false, rx 0x94 false]
     (∀ c ∈ cs, c.parityError = false ∧ c.framingError = false) ∧
     cs.foldl (fun n c => n + c.data) (0 : Byte) = 0 ∧
     (0x96 : Byte).toNat = 128 + (TrunkAddress.station (addr 22)).number ∧
     ¬(0x96 : Byte).toNat = 128 + (TrunkAddress.station (addr 23)).number ∧
     (0x92 : Byte).toNat / 16 = UpstreamKind.status.code ∧ UpstreamKind.status.admits ((0x92 : Byte).toNat % 16) = true ∧
     ¬(0x92 : Byte).toNat / 16 = UpstreamKind.relayed.code) ∧
    [rx 0x96 true, rx 0x92 false].foldl (fun n c => n + c.data) (0 : Byte) ≠ 0 := by decide +kernel

/-- A POLL in flight with a reply in reception. -/
def receiving (chars : List RxChar) (began : Option Nat) : State :=
  let s := flying poll26 (single .receive)
  { s with engine := { s.engine with reception := { s.engine.reception with chars := chars, charBegan := began } } }

theorem witness_AttemptsEndInAGuard :
    world.pins.rstLow = false ∧ (flying poll26 (single .send)).engine.txn = some poll26 ∧
    poll26.maxAttempts ≤ ({ poll26 with attempt := 2 } : Txn).attempt ∧ poll26.attempt < poll26.maxAttempts ∧
    AttemptOutcome.noReply ≠ .good ∧ AttemptOutcome.noReply ≠ .lineFault ∧ AttemptOutcome.good ≠ .lineFault ∧
    poll26.expected.isSome = true ∧ ({ poll26 with expected := none } : Txn).expected = none ∧
    (single .listen).engine.state = .listen ∧ poll26.kind ≠ .solicit ∧
    (receiving [rx 0x96 true] none).engine.state = .receive ∧
    (receiving [rx 0x96 true] none).engine.reception.charBegan = none ∧
    (flying poll26 (single .guarding)).engine.state = .guarding ∧
    ((single .guarding).engine.txn = none ∧ (single .guarding).engine.pendingDisable = none) ∧
    ((disabling (single .guarding)).engine.txn = none ∧
      (disabling (single .guarding)).engine.pendingDisable = some 0x33) := by decide +kernel

/-- The last stop bit of a character begun at 100 is read at 18439 and ends at 20104; the next window end is 60012. -/
theorem witness_RepliesAreGatheredCharacterByCharacter :
    world.pins.rstLow = false ∧ world.engine.state ≠ .listen ∧ world.engine.state ≠ .receive ∧
    (single .listen).params.windowTime = 60012 ∧ (single .listen).params.charTime = 20004 ∧
    (let s := flying poll26 (single .listen)
     s.engine.txn = some poll26 ∧ poll26.kind ≠ .solicit ∧ poll26.expected = some ⟨.station (addr 22), .status, none⟩ ∧
     s.engine.state = .listen ∧ s.engine.reception.charBegan = none ∧
     max 60012 (s.engine.reception.idleFrom - 834) ≤ s.params.windowTime ∧
     s.params.windowTime < max 60013 (s.engine.reception.idleFrom - 834)) ∧
    (let s := receiving [rx 0x96 true] none
     s.engine.state = .receive ∧ s.engine.txn = some poll26 ∧ s.engine.reception.charBegan = none ∧
     s.params.bitTime - (s.params.bitDivider + 1) = 834 ∧
     max 20004 (s.engine.reception.idleFrom - 834) ≤ s.engine.reception.idleFrom + s.params.charTime ∧
     s.engine.reception.idleFrom + s.params.charTime < max 20005 (s.engine.reception.idleFrom - 834)) ∧
    (let s := receiving [rx 0x96 true] (some 100)
     s.engine.state = .receive ∧ s.engine.reception.charBegan = some 100 ∧ s.engine.reception.chars ≠ []) ∧
    receptionComplete ([rx 0x96 true] ++ [rx 0x92 false]) = false ∧
    receptionComplete ([rx 0x96 true, rx 0x92 false, rx 0x41 false, rx 0x03 false] ++ [rx 0x94 false]) = true ∧
    receptionComplete ([] ++ [rx 0x96 true]) = false := by decide +kernel

/-- A character that no START_BIT announced: the START_BIT it stands for leads on. -/
theorem witness_RepliesAreGatheredCharacterByCharacter_unannounced :
    (receiving [rx 0x96 true] none).engine.reception.charBegan = none ∧
    ∃ u, exec (.startBit
      (max (receiving [rx 0x96 true] none).engine.reception.idleFrom
        ((receiving [rx 0x96 true] none).engine.clock - (receiving [rx 0x96 true] none).params.readTime)) false)
      (receiving [rx 0x96 true] none) = .next u :=
  ⟨by decide +kernel, _, next_after (by decide +kernel)⟩

/-- A SOLICIT's listen, with a frame in reception or none, begun at a period. -/
def listening (st : EngineState) (chars : List RxChar) (began : Option Nat) (frameBegan idleFrom : Nat) : State :=
  let s := flying solicit (engineIn st)
  { s with engine := { s.engine with reception := { s.engine.reception with
      chars := chars, charBegan := began, frameBegan := frameBegan, idleFrom := idleFrom } } }

/-- A character time is 20004 REFCLK periods at the defaults, the listen 1120224. -/
theorem witness_SolicitListenKeepsFramesBySubSlot :
    State.reset.params.charTime = 20004 ∧ 56 * State.reset.params.charTime = 1120224 ∧
    (let s := listening .listen [] none 0 0
     s.pins.rstLow = false ∧ s.engine.txn = some solicit ∧ solicit.kind = .solicit ∧ s.engine.state = .listen ∧
     s.engine.reception.charBegan = none ∧ max 1120223 (s.engine.reception.idleFrom - 834) < 56 * s.params.charTime ∧
     56 * s.params.charTime ≤ max 1120224 (s.engine.reception.idleFrom - 834)) ∧
    (let s := listening .receive [rx 0xFF true] none 0 20004
     s.engine.state = .receive ∧ s.engine.txn = some solicit ∧ s.engine.reception.charBegan = none ∧
     max 40008 (s.engine.reception.idleFrom - 834) ≤ s.engine.reception.idleFrom + s.params.charTime ∧
     s.engine.reception.idleFrom + s.params.charTime < max 40009 (s.engine.reception.idleFrom - 834)) ∧
    (let s := listening .receive [rx 0xFF true] none 1120223 1140227
     s.engine.state = .receive ∧ (3 : Fin 4).val * (14 * s.params.charTime) ≤ s.engine.reception.frameBegan ∧
     s.engine.reception.frameBegan < ((3 : Fin 4).val + 1) * (14 * s.params.charTime) ∧
     56 * s.params.charTime ≤ s.engine.reception.idleFrom + s.params.charTime) ∧
    (let s := listening .receive [rx 0xFF true] none 0 20004
     (0 : Fin 4).val * (14 * s.params.charTime) ≤ s.engine.reception.frameBegan ∧
     s.engine.reception.idleFrom + s.params.charTime < 56 * s.params.charTime) ∧
    (let s := listening .receive [rx 0xFF true] (some 1120223) 0 20004
     s.engine.reception.charBegan = some 1120223 ∧ s.engine.reception.chars ≠ [] ∧
     1120223 < 56 * s.params.charTime ∧ 56 * s.params.charTime ≤ 1120223 + s.params.charTime) ∧
    (let s := listening .receive [rx 0xFF true] (some 1120224) 0 1120224
     s.engine.reception.charBegan = some 1120224 ∧ s.engine.reception.chars ≠ [] ∧ 56 * s.params.charTime ≤ 1120224) ∧
    receptionComplete ([rx 0xFF true] ++ [rx 0xA8 false]) = false ∧
    receptionComplete ([rx 0xFF true, rx 0xE0 false] ++ [rx 0x21 false]) = true := by decide +kernel

/-- One period past a character time of idle the frame has ended, and the listen hears the character. -/
theorem witness_SolicitListenKeepsFramesBySubSlot_late :
    ∃ u, exec .replyIdleTimeout (listening .receive [rx 0xFF true] none 0 20004) = .next u :=
  ⟨_, next_after (by decide +kernel)⟩

theorem witness_SolicitResultsAreEvaluatedInOrder :
    (let s := listening .listen [] none 0 0
     s.pins.rstLow = false ∧ s.engine.state = .listen ∧ s.engine.txn = some solicit ∧ solicit.kind = .solicit ∧
     s.enrol.mode = .closed) ∧
    EnrolMode.opened ≠ .closed := by decide +kernel

/-- The enrolment mode. -/
def enrolling (m : EnrolMode) (s : State) : State := { s with enrol := { s.enrol with mode := m } }

theorem witness_JoinsAreClassifiedByIdentity :
    (let s := enrolling .opened world
     s.IdentitiesUnique ∧ s.enrol.mode ≠ .closed ∧ isReleasing (s.lease 3) = true ∧
     s.lease 5 = some (lease .reserved 0xA5 15) ∧ s.lease 4 = some (lease (.lost 40) 0xA4 14) ∧
     isBound (s.lease 0) = true ∧ (∀ n : Slot, ∀ l ∈ s.lease n, l.identity ≠ 0xFF) ∧ s.enrol.mode = .opened ∧
     s.lease 6 = none ∧ (∀ m : Slot, m < 6 → s.lease m ≠ none) ∧ s.entry (addr 126) = .free ∧
     s.entry (addr 1) = .free ∧ (∀ b : Address, b < addr 1 → s.entry b ≠ .free)) ∧
    (let s := enrolling .listed world
     s.IdentitiesUnique ∧ s.enrol.mode ≠ .closed ∧ ¬(s.enrol.mode = .opened) ∧ (0xFF : Identity) ∉ s.enrol.admission) ∧
    (let s := enrolling .opened fullTable
     s.IdentitiesUnique ∧ s.enrol.mode = .opened ∧ ∀ n : Slot, s.lease n ≠ none) ∧
    (let s := enrolling .opened fullPool
     s.IdentitiesUnique ∧ s.enrol.mode = .opened ∧ s.lease 0 = none ∧ ∀ a : Address, s.entry a ≠ .free) ∧
    (126 : Byte).toNat = addressNumber (addr 126) ∧
    (∀ h : Address, (0 : Byte).toNat ≠ addressNumber h) ∧ (∀ h : Address, (127 : Byte).toNat ≠ addressNumber h) := by
  unfold State.IdentitiesUnique; decide +kernel

/-- A world whose OFFERED lease has another prior. -/
def offeredWith (p : Prior) : State := holding 2 (lease (.offered p) 0xA2 12) (engineIn .guarding)

/-- The OFFER of slot 2. -/
def offerTxn : Txn := { poll26 with kind := .offer, slot := some 2, identity := some 0xA2, address := .station (addr 12) }

theorem witness_OfferOutcomeBindsOrAbandons :
    offerTxn.kind = .offer ∧ offerTxn.slot = some 2 ∧ offerTxn.identity = some 0xA2 ∧
    (∀ p ∈ [Prior.fresh, .reserved, .lost],
      (offeredWith p).lease 2 = some (lease (.offered p) 0xA2 12) ∧
      TrunkAddress.station (lease (.offered p) 0xA2 12).address = offerTxn.address) ∧
    (∀ l ∈ State.reset.lease 2, l.identity ≠ 0xA2 ∨ .station l.address ≠ offerTxn.address ∨ isOffered (some l) = false) ∧
    (∀ l ∈ (holding 2 (lease (.bound 9 0) 0xA2 12) State.reset).lease 2,
      l.identity ≠ 0xA2 ∨ .station l.address ≠ offerTxn.address ∨ isOffered (some l) = false) := by decide +kernel

/-- Slot 3 of the example of 2.6 in a state. -/
def polled (st : LeaseStatus) : State := holding 3 (lease st 0x00A1C4002B17 22) (engineIn .guarding)

theorem witness_PollOutcomeRenewsOrCountsAMiss :
    poll26.kind = .poll ∧ poll26.slot = some 3 ∧ poll26.identity = some 0x00A1C4002B17 ∧
    (polled (.bound 100 0)).lease 3 = some (lease (.bound 100 0) 0x00A1C4002B17 22) ∧
    TrunkAddress.station (lease (.bound 100 0) 0x00A1C4002B17 22).address = poll26.address ∧
    ({ poll26 with reply := some [0x41, 0x03] } : Txn).reply = some [0x41, 0x03] ∧
    (polled (.suspect 100 5)).lease 3 = some (lease (.suspect 100 5) 0x00A1C4002B17 22) ∧
    State.reset.params.lostAfter = 5 + 1 ∧ State.reset.params.suspectAfter = 1 + 1 ∧
    1 + 1 < State.reset.params.lostAfter ∧ 0 + 1 < State.reset.params.suspectAfter ∧
    (∀ l ∈ (polled (.lost 9)).lease 3,
      l.identity ≠ 0x00A1C4002B17 ∨ .station l.address ≠ poll26.address ∨ isBound (some l) = false) := by decide +kernel

/-- The RELEASE of slot 3 of `world`. -/
def releaseTxn : Txn :=
  { poll26 with kind := .release, slot := some 3, identity := some 0xA3, address := .station (addr 13), tag := some 0x50 }

theorem witness_ReleaseAndRelayOutcomesAnswerTheHost :
    releaseTxn.kind = .release ∧ world.releases = ⟨addr 13, .retire 3 0x50, false⟩ :: [] ∧ releaseTxn.slot = some 3 ∧
    world.lease 3 = some (lease (.releasing 60) 0xA3 13) ∧ releaseTxn.identity = some 0xA3 ∧
    releaseTxn.address = .station (lease (.releasing 60) 0xA3 13).address ∧
    (clashAt10 true world).releases = ⟨addr 10, .clash, true⟩ :: [] ∧
    ({ poll26 with kind := .relay } : Txn).kind = .relay ∧ world.relays = ⟨0x60, .slot 0, true, none, [1, 2], false⟩ :: [] := by
  decide +kernel

theorem witness_ReleaseAndRelayOutcomesAnswerTheHost_addressOnly (n : Slot) (tag : Byte) :
    (⟨addr 10, .clash, true⟩ : Release).reason ≠ .retire n tag := by intro h; cases h

theorem witness_ProbeOutcomeFollowsTheAnswerTable :
    (probe 20).kind = .probe ∧ (probe 20).address = .station (addr 20) ∧ world.IdentitiesUnique ∧
    (let x : Identity := 0x0#8 ++ 0x0#8 ++ 0x0#8 ++ 0x0#8 ++ 0x0#8 ++ 0xA4#8
     world.lease 4 = some (lease (.lost 40) x 14)) ∧
    ({ probe 14 with reply := some [0xA4, 0, 0, 0, 0, 0, 7, 1] } : Txn).reply = some [0xA4, 0, 0, 0, 0, 0, 7, 1] ∧
    (1 : Byte) ≠ 0 ∧ (255 : Byte) ≠ 0 ∧
    ((lease (.lost 40) 0xA4 14).address = addr 14 ∧ (lease (.lost 40) 0xA4 14).address ≠ addr 20) ∧
    (world.lease 5 = some (lease .reserved 0xA5 15) ∧ (lease .reserved 0xA5 15).address ≠ addr 20) ∧
    (world.lease 0 = some (lease (.bound 120 0) 0xA0 10) ∧ (lease (.bound 120 0) 0xA0 10).address ≠ addr 20) ∧
    world.entry (addr 15) = .held 5 ∧ world.entry (addr 20) = .free ∧ world.entry (addr 30) = .quarantined 8 ∧
    (∀ n : Slot, ∀ l ∈ world.lease n, l.identity ≠ 0xFF) ∧ world.lease 6 = none ∧
    (∀ m : Slot, m < 6 → world.lease m ≠ none) ∧
    (fullTable.IdentitiesUnique ∧ ∀ n : Slot, fullTable.lease n ≠ none) := by
  unfold State.IdentitiesUnique; decide +kernel

/-- A lease with a quality window. -/
def windowed (attempts bads : Nat) (poor : Bool) : Lease :=
  { lease (.bound 100 0) 0x00A1C4002B17 22 with windowAttempts := attempts, windowBad := bads, poor := poor }

/-- QUALITY_LIMIT 3, as in the example of 5.4. -/
def limited (l : Lease) : State :=
  holding 3 l (State.reset.setParams { State.reset.params with qualityLimit := 3 })

theorem witness_QualityWindowCountsAndCloses :
    (∀ l ∈ State.reset.lease 3, l.identity ≠ 0x00A1C4002B17 ∨
      TrunkAddress.station l.address ≠ TrunkAddress.station (addr 22)) ∧
    (limited (windowed 15 3 false)).lease 3 = some (windowed 15 3 false) ∧
    (windowed 15 3 false).identity = 0x00A1C4002B17 ∧ (windowed 15 3 false).address = addr 22 ∧
    (windowed 14 3 false).windowAttempts + 1 ≠ (limited (windowed 14 3 false)).params.windowSize ∧
    (windowed 15 3 false).windowAttempts + 1 = (limited (windowed 15 3 false)).params.windowSize ∧
    decide ((3 : Nat) ≠ 0 ∧ (3 : Nat) < 3 + 1) = true ∧ decide ((3 : Nat) ≠ 0 ∧ (3 : Nat) < 3 + 0) = false ∧
    (windowed 15 3 true).poor = true := by decide +kernel

/-- The world with a command waiting; its next step leads on. -/
def stepping : State := { world with pending := [.tick] }

theorem witness_EveryStepKeeps : ∃ t, step stepping = .next t := ⟨_, rfl⟩

theorem witness_EveryStepKeepsTheAddressMap : stepping.MapMatches := by unfold State.MapMatches; decide +kernel

theorem witness_EveryStepKeepsIdentitiesUnique : stepping.IdentitiesUnique := by
  unfold State.IdentitiesUnique; decide +kernel

theorem witness_EveryStepKeepsThePollRing : stepping.RingMatches := by unfold State.RingMatches; decide +kernel

theorem witness_EveryStepKeepsTheOfferList : stepping.OffersMatch := by unfold State.OffersMatch; decide +kernel

theorem witness_EveryStepKeepsTheRequestFifo : stepping.RequestsFit := by unfold State.RequestsFit; decide +kernel

theorem witness_EveryStepKeepsTheUnitStates : stepping.EngineSound ∧ stepping.SchedulerSound ∧ stepping.CensusSound := by
  unfold State.EngineSound State.SchedulerSound State.CensusSound; decide +kernel

theorem witness_EveryStepKeepsTheRanges : stepping.ParamsInRange ∧ stepping.TimersInRange ∧ stepping.LeasesInRange := by
  unfold State.ParamsInRange State.TimersInRange State.LeasesInRange; decide +kernel

theorem witness_EveryStepKeepsTheResponseSpace :
    stepping.ResponsesFit ∧ stepping.ReleasesMatch ∧ stepping.QueuesFit ∧ stepping.MapMatches ∧ stepping.RequestsFit ∧
    stepping.releaseInFlight = true ∧ stepping.FaultSound ∧ stepping.EngineSound := by
  unfold State.ResponsesFit State.ReleasesMatch State.QueuesFit State.MapMatches State.RequestsFit State.FaultSound
    State.EngineSound
  decide +kernel

/-! ### Syntax, well-formedness, decoding -/

/-- The types of `Instr` are the operands' whole ranges, so there is no ill-formed command to refuse (log entry 3): the ends
of the ranges are well formed. -/
theorem test_wellFormed :
    [Instr.accessByte 0, .accessByte 255, .requestByte 255, .startBit 0 true, .startBit 100000000 false,
      .characterReceived 255 true false false, .pin, .guardEnd].all Instr.wellFormed = true := by decide

/-- No row of the table has bits: no word spells a command, and none is put in front of the queue (log entry 1). -/
theorem test_no_word_spells_a_command (nbits w : Nat) :
    decodeTableWord nbits w = none ∧ State.reset.withFetchWord nbits w = State.reset := ⟨rfl, rfl⟩

/-! ### Pins and the Host Port -/

/-- R202: every block is held at its reset value. -/
theorem test_rstAssert :
    (after .rstAssert world).pins.rstLow = true ∧ (after .rstAssert world).lease 0 = none ∧
    (after .rstAssert world).relays = [] ∧ (after .rstAssert world).causes.flags = 0 := by decide +kernel

/-- R181, R202, R215: a rise with CS# low and TRUNK_FAULT high. -/
theorem test_rstRise :
    (after .rstRise (State.held ⟨true, true, true⟩ [])).host.access = .ignore ∧
    (after .rstRise (State.held ⟨true, true, true⟩ [])).causes.flags = 0x1001 := by decide +kernel

theorem test_csFall : (after .csFall State.reset).host.access = .select := by decide +kernel

/-- R188: a record with an empty Request FIFO, one byte waiting and RESTARTED set. -/
theorem test_accessByte_status :
    let s := reading none false [4]
    (after (.accessByte 3) { s with host := { s.host with access := .select } }).host.access =
      .readStatus [0, 1, 1, 0, 1, 0] := by decide +kernel

/-- R182, R188: the first two bytes of that record, most significant bit first, and filler after its end. -/
theorem test_responseByteRead_status :
    (inAccess (.readStatus [0x81, 1])).misoBits = [true, false, false, false, false, false, false, true] ∧
    (after .responseByteRead (inAccess (.readStatus [0x81, 1]))).misoByte = 1 ∧
    (after .responseByteRead (inAccess (.readStatus [1]))).misoByte = 0 ∧
    mosiByte [false, false, false, false, false, false, true, true] = some 3 := by decide +kernel

/-- The 24-byte frame of the example of 9.2: free space 15. -/
theorem test_requestByte_overrun :
    (after (.requestByte 24) (filled 241 (.write .expectLength))).host.access = .write (.skip 23) ∧
    (after (.requestByte 24) (filled 241 (.write .expectLength))).causes.flags = 0x4001 := by decide +kernel

/-- The length byte 01h of the same example: a marker, and the rest of the access is discarded. -/
theorem test_requestByte_marker :
    (after (.requestByte 1) (inAccess (.write .expectLength))).host.access = .write .discard ∧
    (after (.requestByte 1) (inAccess (.write .expectLength))).host.requests = [.marker 1] := by decide +kernel

/-- R185: a frame in assembly is discarded with REQ_OVERRUN. -/
theorem test_csRise_partial_frame :
    (after .csRise (inAccess (.write (.inFrame 4 [4])))).causes.flags = 0x4001 ∧
    (after .csRise (inAccess (.write (.inFrame 4 [4])))).host.access = .ready := by decide +kernel

/-- R187: with nothing waiting the filler byte is chosen. -/
theorem test_responseByteBegin :
    (after .responseByteBegin (reading none false [])).host.access = .readResponse (some .filler) false := by
  decide +kernel

theorem test_responseByteRead :
    (after .responseByteRead (reading (some (.head 4)) false [4, 1])).host.responses = [1] ∧
    (after .responseByteRead (reading (some .filler) false [4, 1])).host.responses = [4, 1] := by decide +kernel

/-! ### Requests -/

/-- R186: the marker of the example of 9.2. -/
theorem test_badFrame : (after .badFrame (pressed (.marker 1) 5)).host.responses.drop 507 = [5, 0, 0, 0x0E, 1] := by
  decide +kernel

theorem test_unknownRequest :
    (after .unknownRequest (asking [3, 0x07, 9] world)).host.responses = [4, 0x07, 9, 0x0F] := by decide +kernel

/-- Step 4 of the example of 9.4. -/
theorem test_echo : (after .echo (asking [5, 0x01, 0x41, 8, 9] world)).host.responses = [6, 0x01, 0x41, 0, 8, 9] := by
  decide +kernel

/-- Step 2 of the same example: the head waits for its space. -/
theorem test_echo_waits :
    after .echo (pressed (.frame [5, 0x01, 0x41, 8, 9]) 5) = pressed (.frame [5, 0x01, 0x41, 8, 9]) 5 := by decide +kernel

/-- R71: IDLE, nothing in flight, one relay, one release, one offer, two ring members. -/
theorem test_readEngine :
    (after .readEngine (asking [3, 0x02, 1] world)).host.responses = [15, 0x02, 1, 0, 1, 0, 0, 1, 1, 1, 2, 0, 0, 0, 0] := by
  decide +kernel

/-- The example of 8.4: SUSPECT_AFTER becomes 4, and a SUSPECT lease stays so with its misses cleared. -/
theorem test_configure :
    let t := after .configure (asking [6, 0x03, 1, 0x0A, 4, 0] world)
    t.host.responses = [9, 0x03, 1, 0, 0x0A, 2, 0, 4, 0] ∧ t.params.suspectAfter = 4 ∧
    (t.lease 1).map (fun l => l.status) = some (.suspect 70 0) := by decide +kernel

/-- R179: the second request of the rule's own example, at the defaults. -/
theorem test_readConfig :
    (after .readConfig (asking [5, 0x04, 1, 0x11, 6] world)).host.responses =
      [18, 0x04, 1, 0, 0x11, 6, 100, 0, 0, 0, 16, 0, 0, 0, 200, 0, 4, 0] := by decide +kernel

theorem test_enable :
    let t := after .enable (asking [4, 0x05, 1, 1] State.reset)
    t.engine.state = .idle ∧ t.host.responses = [5, 0x05, 1, 0, 1] := by decide +kernel

/-- R60: an action out of range. -/
theorem test_enable_badArg :
    (after .enable (asking [4, 0x05, 1, 9] State.reset)).host.responses = [4, 0x05, 1, 4] := by decide +kernel

theorem test_disable :
    let t := after .disable (asking [4, 0x05, 1, 2] (engineIn .held))
    t.engine.state = .off ∧ t.causes.flags = 0x8003 ∧ t.host.responses = [5, 0x05, 1, 0, 0] := by decide +kernel

theorem test_disable_pending :
    let t := after .disable (asking [4, 0x05, 1, 2] (engineIn .listen))
    t.engine.pendingDisable = some 1 ∧ t.engine.state = .listen ∧ t.host.reserved = 5 ∧ t.host.responses = [] := by
  decide +kernel

/-- R64: the relay, the graceful RETIRE, then the request itself. -/
theorem test_resetTrunk :
    let t := after .resetTrunk (asking [4, 0x05, 1, 3] world)
    t.host.responses = [4, 0x28, 0x60, 0x0C, 4, 0x15, 0x50, 0x0C, 5, 0x05, 1, 0, 0] ∧ t.host.reserved = 0 ∧
    t.entry (addr 12) = .quarantined 130 ∧ t.entry (addr 13) = .quarantined 70 ∧ t.engine.state = .off := by
  decide +kernel

theorem test_reset :
    let t := after .reset (pressed (.frame [3, 0x06, 9]) 0)
    t.host.responses = [4, 0x06, 9, 0] ∧ t.causes.flags = 3 := by decide +kernel

/-- The CAUSE_CONTROL of the example of 10.5: ROUND_DONE cleared and still enabled. -/
theorem test_causeControl :
    let s := asking [8, 0x08, 1, 8, 0, 8, 0, 1] world
    let t := after .causeControl { s with causes := { s.causes with flags := 0x000E, enables := 0x000C } }
    t.host.responses = [8, 0x08, 1, 0, 6, 0, 0x0C, 0] ∧ t.causes.flags = 6 ∧ t.hintLow = true := by decide +kernel

/-- R205: the request's own response does not set the RESPONSE_READY it clears. -/
theorem test_causeControl_responseReady :
    let s := asking [8, 0x08, 1, 3, 0, 0, 0, 1] world
    (after .causeControl { s with causes := { s.causes with flags := 3 } }).causes.flags = 0 := by decide +kernel

theorem test_readCauses :
    let t := after .readCauses (asking [3, 0x09, 1] State.reset)
    t.host.responses = [8, 0x09, 1, 0, 1, 0, 0, 0] ∧ t.causes.flags = 3 := by decide +kernel

/-- Step 1 of the example of 10.5: the two lowest members, and CHANGES stays set. -/
theorem test_readChanges :
    let s := changed (holding 2 (lease (.bound 84 0) 1 31) (holding 5 (lease (.bound 84 0) 2 32) State.reset))
    let s := { s with causes := { s.causes with flags := 0x0004 } }
    let t := after .readChanges (asking [4, 0x0A, 1, 2] s)
    t.host.responses = [12, 0x0A, 1, 0, 2, 1, 2, 1, 3, 5, 2, 3] ∧ t.changeSet = [9] ∧ t.causes.flags = 6 := by
  decide +kernel

/-- Table 9-8 for a BOUND lease that has not been polled. -/
theorem test_readSlot :
    (after .readSlot (asking [4, 0x10, 1, 3] (single .idle))).host.responses =
      [36, 0x10, 1, 0, 3, 3, 0xAF, 0xB3, 0x17, 0x2B, 0, 0xC4, 0xA1, 0, 22, 0x21, 0, 0, 100, 0, 0, 0, 0, 1, 1, 0, 0, 0, 0,
       0, 0, 0, 0, 0, 0, 6] := by decide +kernel

/-- Table 9-9 for a LOST lease. -/
theorem test_lookupIdentity :
    (after .lookupIdentity (asking [9, 0x11, 1, 0xA4, 0, 0, 0, 0, 0] world)).host.responses =
      [14, 0x11, 1, 0, 4, 5, 0x5F, 14, 0x21, 0, 40, 0, 0, 0] := by decide +kernel

theorem test_lookupAddress :
    (after .lookupAddress (asking [4, 0x12, 1, 30] world)).host.responses = [8, 0x12, 1, 0, 30, 1, 8, 0] := by
  decide +kernel

/-- R29: a lower cadence takes effect at the next visit. -/
theorem test_setFields :
    (after .setFields (asking [8, 0x13, 1, 1, 1, 1, 5, 6] world)).host.responses =
      [10, 0x13, 1, 0, 1, 1, 1, 1, 5, 6] := by decide +kernel

theorem test_pin :
    let t := after .pin (asking [10, 0x14, 1, 9, 0x0B, 0, 0xE1, 0xC3, 0, 40] world)
    t.host.responses = [5, 0x14, 1, 0, 6] ∧ t.entry (addr 40) = .held 6 ∧
    t.lease 6 = some { newLease .reserved 0x00C3E1000B09 (addr 40) none .pinned with cls := none } := by decide +kernel

/-- R19: a QUARANTINED address is busy, and no slot holds it. -/
theorem test_pin_addressBusy :
    (after .pin (asking [10, 0x14, 1, 9, 0, 0, 0, 0, 0, 30] world)).host.responses = [5, 0x14, 1, 7, 0xFF] := by
  decide +kernel

/-- R22: 120 + QUARANTINE_MIN 10. -/
theorem test_retireForced :
    let t := after .retireForced (asking [5, 0x15, 1, 0, 1] world)
    t.host.responses = [10, 0x15, 1, 0, 0, 3, 10, 1, 130, 0] ∧ t.lease 0 = none ∧ t.poll.slots = [1] := by
  decide +kernel

/-- Step 1 of the example of 7.8: the RETIRE takes a census entry over where it stands. -/
theorem test_retireGraceful :
    let t := after .retireGraceful (asking [5, 0x15, 1, 0, 0] (clashAt10 false world))
    t.releases = [⟨addr 10, .retire 0 1, false⟩] ∧ (t.lease 0).map (fun l => l.status) = some (.releasing 120) ∧
    t.host.responses = [] ∧ t.host.reserved = 40 := by decide +kernel

theorem test_ringMove :
    let t := after .ringMove (asking [5, 0x16, 1, 0, 0xFF] world)
    t.poll.slots = [1, 0] ∧ t.host.responses = [6, 0x16, 1, 0, 1, 2] := by decide +kernel

theorem test_setEnrolMode :
    let s := enrolling .opened world
    let t := after .setEnrolMode (asking [4, 0x18, 1, 0] { s with enrol := { s.enrol with solicitDue := true } })
    t.host.responses = [8, 0x18, 1, 0, 2, 0, 0, 1] ∧ t.enrol.solicitDue = false := by decide +kernel

theorem test_admitAdd :
    let t := after .admitAdd (asking [9, 0x19, 1, 1, 0x33, 0, 0xC4, 0xA1, 0] (admitting [5] world))
    t.enrol.admission = [5, 0x00A1C4003301] ∧ t.host.responses = [6, 0x19, 1, 0, 1, 2] := by decide +kernel

theorem test_admitRemove :
    let t := after .admitRemove (asking [9, 0x1A, 1, 6, 0, 0, 0, 0, 0] (admitting [5, 6, 7] world))
    t.enrol.admission = [5, 7] ∧ t.host.responses = [6, 0x1A, 1, 0, 1, 2] := by decide +kernel

theorem test_admitClear :
    (after .admitClear (asking [3, 0x1B, 1] (admitting [5, 6, 7] world))).host.responses = [5, 0x1B, 1, 0, 3] := by
  decide +kernel

theorem test_admitRead :
    (after .admitRead (asking [4, 0x1C, 1, 1] (admitting [5, 0x060504030201] world))).host.responses =
      [11, 0x1C, 1, 0, 1, 2, 3, 4, 5, 6, 2] := by decide +kernel

/-- R108: CONTINUOUS begins a round at once. -/
theorem test_pollControl :
    let t := after .pollControl (asking [4, 0x20, 1, 1] world)
    t.host.responses = [9, 0x20, 1, 0, 0, 1, 2, 0, 0] ∧ t.poll.pending = some ⟨0, false⟩ := by decide +kernel

/-- R107: in CONTINUOUS the round ends with slot 1 passed, and the next names slot 0, whose count is 1. -/
theorem test_continuous_round_end :
    let t := (markedRing world).walkStep
    t.poll.pending = some ⟨0, false⟩ ∧ t.poll.rounds = 1 ∧ t.causes.flags = 0x0009 ∧ t.countOf 1 = 1 ∧
    t.poll.ring = [⟨0, false⟩, ⟨1, false⟩] := by decide +kernel

/-- R110: over an empty ring the round ends in the same change. -/
theorem test_pollRound :
    let t := after .pollRound (asking [3, 0x21, 1] (scheduling .single .wait State.reset))
    t.host.responses = [8, 0x21, 1, 0, 0, 1, 1, 0] ∧ t.causes.flags = 0x000B := by decide +kernel

/-- Step 1 of the example of 6.6. -/
theorem test_censusStart :
    let t := after .censusStart (asking [6, 0x24, 1, 20, 26, 1] world)
    t.host.responses = [7, 0x24, 1, 0, 1, 20, 0] ∧ t.census.pending = some ⟨addr 20, false⟩ := by decide +kernel

theorem test_censusStop :
    let t := after .censusStop (asking [3, 0x25, 1] (sweeping .running .continuous world))
    t.host.responses = [5, 0x25, 1, 0, 1] ∧ t.census.state = .idle ∧ t.census.pending = none := by decide +kernel

theorem test_censusStep :
    let t := after .censusStep (asking [3, 0x26, 1] (sweeping .running .stepped (hostSteps world)))
    t.host.responses = [7, 0x26, 1, 0, 1, 1, 1] ∧ t.census.stepPending = true := by decide +kernel

theorem test_censusStatus :
    (after .censusStatus (asking [3, 0x27, 1] State.reset)).host.responses =
      [15, 0x27, 1, 0, 0, 1, 1, 126, 1, 0, 0, 0, 0, 0, 0] := by decide +kernel

/-- Step 5 of the example of 9.4. -/
theorem test_relay :
    let t := after .relay (asking [6, 0x28, 0x42, 0, 1, 0] world)
    t.relays.map (fun e => e.tag) = [0x60, 0x42] ∧ t.host.reserved = 47 ∧ t.host.responses = [] := by decide +kernel

/-- Step 7 of the same example: the cancelled relay is answered before the cancel. -/
theorem test_relayCancel :
    let s := relaying [relayOf 0x32 (.slot 0) false, relayOf 0x42 (.slot 0) false] world
    (after .relayCancel (asking [4, 0x29, 0x43, 0x32] s)).host.responses =
      [4, 0x28, 0x32, 0x0C, 5, 0x29, 0x43, 0, 1] := by decide +kernel

/-- Step 5 of the example of 11.5: the relay is in flight. -/
theorem test_relayCancel_tooLate :
    (after .relayCancel (asking [4, 0x29, 0x23, 0x21] (relaying [relayOf 0x21 (.slot 0) true] world))).host.responses =
      [4, 0x29, 0x23, 0x0D] := by decide +kernel

/-! ### Time -/

theorem test_tick :
    let t := after .tick State.reset
    t.timing.seconds = 1 ∧ t.timing.pace = 1999 ∧ t.timing.solicit = 1999 ∧ t.timing.censusStep = 99 := by decide +kernel

/-- R14, R15, R16: RELEASING is not counted. -/
theorem test_secondsStrobe :
    let t := after .secondsStrobe (timed 1000 5 5 5 world)
    [0, 1, 3, 4].map (fun n => (t.lease n).map (fun l => l.status)) =
      [some (.bound 119 0), some (.suspect 69 3), some (.releasing 60), some (.lost 39)] ∧
    t.entry (addr 30) = .quarantined 7 := by decide +kernel

/-- R14: the last second of a term. -/
theorem test_secondsStrobe_expiry :
    let t := after .secondsStrobe (timed 1000 5 5 5 (holding 3 (lease (.bound 1 0) 9 22) State.reset))
    (t.lease 3).map (fun l => l.status) = some (.lost 10) ∧ t.poll.ring = [] ∧ t.changeSet = [3] := by decide +kernel

/-- R109: an expiry in ROUND. -/
theorem test_paceExpiry :
    let t := after .paceExpiry (scheduling .paced .round (timed 1 0 5 5 world))
    t.causes.flags = 0x0011 ∧ t.timing.pace = 2000 := by decide +kernel

theorem test_solicitExpiry :
    let t := after .solicitExpiry (enrolling .listed (timed 1 5 0 5 world))
    t.enrol.solicitDue = true ∧ t.timing.solicit = 2000 := by decide +kernel

/-- R133: a second step waits behind the probe. -/
theorem test_censusStepExpiry :
    (after .censusStepExpiry (sweeping .running .stepped (timed 1 5 5 0 world))).census.stepPending = true := by
  decide +kernel

/-! ### Trunk faults -/

theorem test_trunkFaultRising :
    let t := after .trunkFaultRising (flying poll26 (single .listen))
    t.engine.state = .held ∧ t.engine.txn = none ∧ t.engine.grace = .running 200 ∧ t.causes.flags = 0x1001 ∧
    (t.lease 3).map (fun l => l.status) = some (.bound 100 0) := by decide +kernel

/-- R66, R76: a SOLICIT that a fault cuts keeps nothing of what it heard, and solicit due stays clear. -/
theorem test_trunkFaultRising_solicit :
    let s := enrolling .opened (flying solicit (engineIn .listen))
    let t := after .trunkFaultRising { s with engine := { s.engine with reception := { s.engine.reception with
      subSlots := s.engine.reception.subSlots.set 1 ⟨2, true, none⟩ } } }
    t.engine.state = .held ∧ t.engine.collisions = 0 ∧ t.enrol.solicitDue = false ∧ t.enrol.offers = [] := by decide +kernel

theorem test_trunkFaultFalling :
    let t := after .trunkFaultFalling (faulted (.running 5) (engineIn .held))
    t.engine.state = .guarding ∧ t.engine.grace = .stopped := by decide +kernel

/-- The long fault of 11.4: the graceful RETIRE is answered LINE_FAULT with QUARANTINE_MIN. -/
theorem test_faultDrop :
    let t := after .faultDrop (dropping world)
    [0, 1, 4].map (fun n => (t.lease n).map (fun l => l.status)) = [some (.lost 10), some (.lost 10), some (.lost 40)] ∧
    t.lease 2 = none ∧ t.lease 3 = none ∧ t.host.responses = [11, 0x15, 0x50, 0x0B, 3, 13, 0, 0, 1, 10, 0] ∧
    t.engine.grace = .spent ∧ t.engine.dropDue = false := by decide +kernel

/-- R68: the tick that brings the timer to 0 makes the drop due, and a falling after it does not prevent it. -/
theorem test_graceReachesZero :
    let s := after .tick (faulted (.running 1) (single .held))
    s.engine.grace = .spent ∧ s.engine.dropDue = true ∧
    ((after .trunkFaultFalling s).lease 3).map (fun l => l.status) = some (.lost 10) ∧
    ((after .trunkFaultFalling (faulted (.running 1) (single .held))).lease 3).map (fun l => l.status) =
      some (.bound 100 0) := by decide +kernel

/-! ### The trunk -/

/-- The frame of the example of 2.6. -/
theorem test_grant_poll :
    let s := single .idle
    let t := after .grant { s with poll := { s.poll with pending := some ⟨3, false⟩ } }
    t.engine.state = .send ∧ t.engine.txn.map (fun x => x.frame) = some [0x16, 0x11, 0x1E, 0xBB] := by decide +kernel

/-- Grant 3 of the example of 3.3: the burst count has reached RELAY_BURST, and the poll goes ahead of the relays. -/
theorem test_grant_burst :
    let t := after .grant (burst 4 (working [relayOf 0x13 (.slot 0) false] (some 0) none true world))
    t.engine.txn.map (fun x => x.kind) = some .poll ∧ t.engine.burst = 0 := by decide +kernel

theorem test_frameSent : (after .frameSent (flying poll26 (single .send))).engine.state = .listen := by decide +kernel

/-- The last character of the STATUS of 2.6: status word 0341h, and the term is renewed. -/
theorem test_characterReceived_good :
    let s := receiving [rx 0x96 true, rx 0x92 false, rx 0x41 false, rx 0x03 false] (some 100)
    let t := after (char 0x94 false) { s with poll := { s.poll with state := .round, pending := some ⟨3, true⟩ } }
    t.engine.state = .guarding ∧ t.engine.txn = none ∧ (t.lease 3).map (fun l => l.status) = some (.bound 120 0) ∧
    (t.lease 3).map (fun l => l.lastStatus) = some (some 0x0341) := by decide +kernel

/-- The third reply of 2.6: the address character carries another address. -/
theorem test_characterReceived_wrongSource :
    let s := receiving [rx 0x97 true, rx 0x92 false, rx 0x41 false, rx 0x03 false] (some 100)
    (after (char 0x93 false) s).engine.txn.map (fun x => x.lastOutcome) = some (some (.garbled .wrongSource)) := by
  decide +kernel

/-- The parity bits of both frames of 2.6. -/
theorem test_parity :
    [(0x16, true), (0x11, false), (0x1E, false), (0xBB, false), (0x96, true), (0x92, false), (0x41, false), (0x03, false),
      (0x94, false)].map (fun c : Byte × Bool => oddParity c.1 c.2) =
      [true, true, true, true, false, false, true, true, false] := by decide

/-- The first reply of 2.6: two characters and an idle. -/
theorem test_replyIdleTimeout :
    let t := after .replyIdleTimeout (receiving [rx 0x96 true, rx 0x92 false] none)
    t.engine.txn.map (fun x => x.lastOutcome) = some (some (.garbled .short)) ∧ t.engine.state = .guarding := by
  decide +kernel

theorem test_replyWindowTimeout :
    let t := after .replyWindowTimeout (flying poll26 (single .listen))
    t.engine.txn.map (fun x => x.lastOutcome) = some (some .noReply) ∧ t.engine.state = .guarding := by decide +kernel

/-- The three results of the example of 4.7, with station A's JOIN in sub-slot 0 and two stations in sub-slot 1. -/
theorem test_solicitListenEnd :
    let s := admitting [0x00A1C4003301] (enrolling .listed (listening .listen [] none 0 0))
    let t := after .solicitListenEnd { s with engine := { s.engine with reception := { s.engine.reception with
      subSlots := (s.engine.reception.subSlots.set 0 ⟨1, false, some ⟨0x00A1C4003301, 0x21, 7⟩⟩).set 1 ⟨1, true, none⟩ } } }
    (t.lease 0).map (fun l => (l.status, l.identity, l.address)) = some (.offered .fresh, 0x00A1C4003301, addr 7) ∧
    t.enrol.offers = [⟨0, 0⟩] ∧ t.engine.collisions = 1 ∧ t.engine.state = .guarding := by decide +kernel

/-- R51: the second attempt of the POLL. -/
theorem test_guardEnd :
    let t := after .guardEnd (flying poll26 (single .guarding))
    t.engine.state = .send ∧ t.engine.txn.map (fun x => x.attempt) = some 2 := by decide +kernel

/-- R33: a fall that reads 1 at its middle is noise; one that reads 0 begins the reply. -/
theorem test_startBit :
    (after (.startBit 50 true) (flying poll26 (single .listen))).engine.state = .listen ∧
    (after (.startBit 50 false) (flying poll26 (single .listen))).engine.state = .receive := by decide +kernel

/-- R33, R167: the stop bit of a character begun at 0 is read at 19170 and ends at 20004; a fall between begins the next there. -/
theorem test_startBit_fast_station :
    let s := after (char 0x96 true) (receiving [] (some 0))
    s.engine.reception.idleFrom = 20004 ∧ s.engine.clock = 19170 ∧
    (after (.startBit 19500 false) s).engine.reception.charBegan = some 19500 := by decide +kernel

/-- R40 item 3, R44: the guard counts from the beginning of the second flag-1 character. -/
theorem test_characterReceived_flag1 :
    let t := after (char 0x96 true) (receiving [rx 0x96 true, rx 0x92 false] (some 40008))
    t.engine.state = .guarding ∧ t.engine.guardFrom = 40008 ∧
    t.engine.txn.map (fun x => x.lastOutcome) = some (some (.garbled .short)) := by decide +kernel

/-! ### The step -/

/-- At the end of the reply window a fall in its last period may still be under judgement (R33); the window then ends, and the
guard counts from its end (log entry 32). -/
theorem test_window_waits_for_the_judgement :
    let s (n : Nat) : State :=
      let u := flying poll26 (single .listen)
      { u with engine := { u.engine with clock := n } }
    (s 60012).trunkDue = none ∧ (s 60845).trunkDue = none ∧ (s 60846).trunkDue = some .replyWindowTimeout ∧
    (after .replyWindowTimeout (s 60846)).engine.guardFrom = 60012 := by decide +kernel

/-- With no command waiting the part grants of itself (log entry 5). -/
theorem test_step_own_event :
    (match step (burst 0 (working [] none (some 20) false world)) with
     | .next t => t.engine.txn.map (fun x => x.kind)
     | _ => none) = some .probe := by decide +kernel

end Sys2Proof.Tests
end

/-! ## What every command can do to the Lease Table, the Address Map and the Timing Unit

One relation says all that a command can do to these blocks; the invariants of chapter 01 follow from it. -/
namespace Sys2Proof.Machine
set_option Elab.async false

/-! ### One change of the table -/

/-- Two states with the same Lease Table, Address Map and Timing Unit. -/
def State.Agrees (t u : State) : Prop := t.table = u.table ∧ t.timing = u.timing

theorem State.Agrees.lease {t u : State} (h : t.Agrees u) (n : Slot) : t.lease n = u.lease n := by
  simp only [State.lease, h.1]

theorem State.Agrees.entry {t u : State} (h : t.Agrees u) (a : Address) : t.entry a = u.entry a := by
  simp only [State.entry, h.1]

theorem State.Agrees.params {t u : State} (h : t.Agrees u) : t.params = u.params := by
  simp only [State.params, h.2]

/-- A quarantine of the Address Map in its range: at least 1 and at most 1275 seconds (R8, R9). -/
def AddrEntry.InRange (e : AddrEntry) : Prop := (e = .quarantined 0 → False) ∧ e.seconds ≤ 1275

/-- One change of the Lease Table and the Address Map, with the Timing Unit untouched. Each kind carries what the invariants
of chapter 01 need: who holds which address and identity, and that what is written is in its range when what it replaces is. -/
inductive State.Edit (s t : State) : Prop
  /-- Neither block changes. -/
  | same (h : t.Agrees s)
  /-- A lease keeps its identity and its address. -/
  | revise (n : Slot) (l k : Lease) (hl : s.lease n = some l) (hx : k.identity = l.identity)
      (ha : k.address = l.address) (hr : s.ParamsInRange → l.inRange s.params = true → k.inRange s.params = true)
      (h : t.Agrees (s.putLease n (some k)))
  /-- An address entry keeps its holder, or keeps having none. -/
  | withhold (a : Address) (e : AddrEntry) (he : e.holder = (s.entry a).holder)
      (hr : s.ParamsInRange → (s.entry a).InRange → e.InRange) (h : t.Agrees (s.putEntry a e))
  /-- A lease becomes FREE and its address takes a quarantine. -/
  | vacate (n : Slot) (l : Lease) (q : Nat) (hl : s.lease n = some l)
      (hr : s.ParamsInRange → l.inRange s.params = true → q ≤ 1275) (h : t.Agrees (s.vacate n l q))
  /-- A lease of an unknown identity takes a FREE slot and an address that is not HELD. -/
  | create (n : Slot) (l : Lease) (hl : s.lease n = none) (hx : ∀ m : Slot, ∀ k ∈ s.lease m, k.identity ≠ l.identity)
      (ha : (s.entry l.address).holder = none) (hr : s.ParamsInRange → l.inRange s.params = true)
      (h : t.Agrees (s.createLease n l))
  /-- A lease moves to an address that is not HELD, and its former address takes a quarantine. -/
  | move (n : Slot) (l k : Lease) (q : Nat) (hl : s.lease n = some l) (hx : k.identity = l.identity)
      (ha : (s.entry k.address).holder = none)
      (hr : s.ParamsInRange → l.inRange s.params = true → k.inRange s.params = true ∧ q ≤ 1275)
      (h : t.Agrees (((s.putEntry l.address (quarantineEntry q)).putEntry k.address (.held n)).putLease n (some k)))

/-- Any number of such changes, one after another. -/
def State.EditsTo : State → State → Prop := Relation.ReflTransGen State.Edit

namespace State.EditsTo

theorem refl (s : State) : s.EditsTo s := Relation.ReflTransGen.refl

theorem trans {s t u : State} (h : s.EditsTo t) (k : t.EditsTo u) : s.EditsTo u := Relation.ReflTransGen.trans h k

theorem one {s t : State} (h : s.Edit t) : s.EditsTo t := Relation.ReflTransGen.single h

/-- A change of other blocks alone. -/
theorem same {s t : State} (h : t.Agrees s := by exact ⟨rfl, rfl⟩) : s.EditsTo t := one (.same h)

/-- Other blocks may change after the table has. -/
theorem andSame {s t u : State} (h : s.EditsTo t) (k : u.Agrees t := by exact ⟨rfl, rfl⟩) : s.EditsTo u := h.trans (same k)

/-- Other blocks may change before the table does. -/
theorem afterSame {s t u : State} (h : t.EditsTo u) (k : t.Agrees s := by exact ⟨rfl, rfl⟩) : s.EditsTo u :=
  (same k).trans h

/-- One of two changes, by a condition. -/
theorem cond {s t u : State} {c : Prop} [Decidable c] (h : c → s.EditsTo t) (k : ¬c → s.EditsTo u) :
    s.EditsTo (if c then t else u) := by
  split
  · exact h ‹_›
  · exact k ‹_›

/-- The Timing Unit stays as it is. -/
theorem timing {s t : State} (h : s.EditsTo t) : t.timing = s.timing := by
  induction h with
  | refl => rfl
  | tail _ he ih =>
    refine Eq.trans ?_ ih
    cases he with
    | same h => exact h.2
    | revise _ _ _ _ _ _ _ h => exact h.2
    | withhold _ _ _ _ h => exact h.2
    | vacate _ _ _ _ _ h => exact h.2
    | create _ _ _ _ _ _ h => exact h.2
    | move _ _ _ _ _ _ _ _ h => exact h.2

end State.EditsTo

/-! ### The Address Map agrees with the leases -/

theorem AddrEntry.holder_eq_some {e : AddrEntry} {n : Slot} : e.holder = some n ↔ e = .held n := by
  cases e <;> simp [AddrEntry.holder]

/-- A quarantine has no holder. -/
@[simp] theorem quarantineEntry_holder (q : Nat) : (quarantineEntry q).holder = none := by
  unfold quarantineEntry
  split <;> rfl

/-- An address is HELD by a slot exactly when the slot's lease carries it. -/
theorem State.mapMatches_iff {s : State} :
    s.MapMatches ↔ ∀ (n : Slot) (a : Address), (s.lease n).map (fun l => l.address) = some a ↔ (s.entry a).holder = some n := by
  constructor
  · rintro ⟨hl, he⟩ n a
    refine ⟨fun h => ?_, fun h => he a n h⟩
    obtain ⟨l, hn, rfl⟩ := Option.map_eq_some_iff.mp h
    rw [hl n l hn]
    rfl
  · refine fun h => ⟨fun n l hn => ?_, fun a n ha => (h n a).mpr ha⟩
    exact AddrEntry.holder_eq_some.mp ((h n l.address).mp (by rw [Option.mem_def.mp hn]; rfl))

theorem State.MapMatches.agrees {s t : State} (h : t.Agrees s) (hs : s.MapMatches) : t.MapMatches := by
  simpa only [State.mapMatches_iff, h.lease, h.entry] using hs

/-- One change keeps the Address Map and the leases in agreement (R8). -/
theorem State.MapMatches.edit {s t : State} (he : s.Edit t) (hs : s.MapMatches) : t.MapMatches := by
  have hm := State.mapMatches_iff.mp hs
  cases he with
  | same h => exact hs.agrees h
  | revise n l k hl hx ha hr h =>
    refine State.MapMatches.agrees h (State.mapMatches_iff.mpr fun m a => ?_)
    rw [State.putLease_lease, State.putLease_entry, ← hm m a]
    split
    · next e => simp [e, hl, ha]
    · rfl
  | withhold a e he hr h =>
    refine State.MapMatches.agrees h (State.mapMatches_iff.mpr fun m b => ?_)
    rw [State.putEntry_lease, State.putEntry_entry, hm m b]
    split
    · next e => rw [e, he]
    · rfl
  | vacate n l q hl hr h =>
    refine State.MapMatches.agrees h (State.mapMatches_iff.mpr fun m b => ?_)
    rw [State.vacate_lease, State.vacate_entry]
    have hn := hm n b
    have hmb := hm m b
    rw [hl] at hn
    grind [quarantineEntry_holder]
  | create n l hl hx ha hr h =>
    refine State.MapMatches.agrees h (State.mapMatches_iff.mpr fun m b => ?_)
    rw [State.createLease_lease, State.createLease_entry]
    have hn := hm n b
    have hmb := hm m b
    rw [hl] at hn
    grind [AddrEntry.holder]
  | move n l k q hl hx ha hr h =>
    refine State.MapMatches.agrees h (State.mapMatches_iff.mpr fun m b => ?_)
    simp only [State.putLease_lease, State.putLease_entry, State.putEntry_lease, State.putEntry_entry]
    have hn := hm n b
    have hmb := hm m b
    rw [hl] at hn
    grind [AddrEntry.holder, quarantineEntry_holder]

/-! ### The identities of the leases are distinct -/

theorem State.IdentitiesUnique.agrees {s t : State} (h : t.Agrees s) (hs : s.IdentitiesUnique) : t.IdentitiesUnique := by
  simpa only [State.IdentitiesUnique, h.lease] using hs

/-- Writing a slot keeps the identities distinct when no other slot holds the identity written. -/
theorem State.IdentitiesUnique.putLease {s : State} {n : Slot} {k : Lease} (hs : s.IdentitiesUnique)
    (hk : ∀ m : Slot, m ≠ n → ∀ l ∈ s.lease m, l.identity ≠ k.identity) : (s.putLease n (some k)).IdentitiesUnique := by
  intro i j l hl l' hl' hx
  rw [State.putLease_lease] at hl hl'
  split at hl <;> split at hl'
  · next hi hj => exact hi.trans hj.symm
  · next hi hj =>
    cases hl
    exact absurd hx.symm (hk j hj l' hl')
  · next hi hj =>
    cases hl'
    exact absurd hx (hk i hi l hl)
  · exact hs i j l hl l' hl' hx

/-- A slot whose lease keeps its identity meets that condition. -/
theorem State.IdentitiesUnique.others {s : State} {n : Slot} {l k : Lease} (hs : s.IdentitiesUnique)
    (hl : s.lease n = some l) (hx : k.identity = l.identity) :
    ∀ m : Slot, m ≠ n → ∀ l ∈ s.lease m, l.identity ≠ k.identity :=
  fun m hm l' hl' he => hm (hs m n l' hl' l hl (he.trans hx))

/-- One change keeps the identities of the leases distinct (R4). -/
theorem State.IdentitiesUnique.edit {s t : State} (he : s.Edit t) (hs : s.IdentitiesUnique) : t.IdentitiesUnique := by
  cases he with
  | same h => exact hs.agrees h
  | revise n l k hl hx ha hr h => exact State.IdentitiesUnique.agrees h (hs.putLease (hs.others hl hx))
  | withhold a e he hr h => exact State.IdentitiesUnique.agrees h hs
  | vacate n l q hl hr h =>
    refine State.IdentitiesUnique.agrees h fun i j l hi l' hj hx => ?_
    rw [State.vacate_lease] at hi hj
    split at hi
    · cases hi
    · split at hj
      · cases hj
      · exact hs i j l hi l' hj hx
  | create n l hl hx ha hr h => exact State.IdentitiesUnique.agrees h (hs.putLease fun m _ k hk => hx m k hk)
  | move n l k q hl hx ha hr h => exact State.IdentitiesUnique.agrees h (State.IdentitiesUnique.putLease hs (hs.others hl hx))

/-! ### The counts of leases and quarantines are in their ranges -/

theorem State.LeasesInRange.agrees {s t : State} (h : t.Agrees s) (hs : s.LeasesInRange) : t.LeasesInRange := by
  simpa only [State.LeasesInRange, h.lease, h.entry, h.params] using hs

theorem State.LeasesInRange.putLease {s : State} {n : Slot} {k : Option Lease} (hs : s.LeasesInRange)
    (hk : ∀ l ∈ k, l.inRange s.params = true) : (s.putLease n k).LeasesInRange := by
  refine ⟨fun m l hl => ?_, hs.2⟩
  rw [State.putLease_lease] at hl
  split at hl
  · exact hk l hl
  · exact hs.1 m l hl

theorem State.LeasesInRange.putEntry {s : State} {a : Address} {e : AddrEntry} (hs : s.LeasesInRange)
    (he : e.InRange) : (s.putEntry a e).LeasesInRange := by
  refine ⟨hs.1, fun b => ?_⟩
  rw [State.putEntry_entry]
  split
  · exact he
  · exact hs.2 b

theorem quarantineEntry_inRange {q : Nat} (h : q ≤ 1275) : (quarantineEntry q).InRange := by
  unfold quarantineEntry
  split
  · exact ⟨nofun, Nat.zero_le _⟩
  · next hq => exact ⟨fun e => hq (AddrEntry.quarantined.inj e), h⟩

theorem held_inRange (n : Slot) : (AddrEntry.held n).InRange := ⟨nofun, Nat.zero_le _⟩

/-- One change keeps every lease and every quarantine in its ranges, when the parameters are in theirs. -/
theorem State.LeasesInRange.edit {s t : State} (he : s.Edit t) (hp : s.ParamsInRange) (hs : s.LeasesInRange) :
    t.LeasesInRange := by
  cases he with
  | same h => exact hs.agrees h
  | revise n l k hl hx ha hr h =>
    refine State.LeasesInRange.agrees h (hs.putLease ?_)
    rintro _ ⟨⟩
    exact hr hp (hs.1 n l hl)
  | withhold a e he hr h => exact State.LeasesInRange.agrees h (hs.putEntry (hr hp (hs.2 a)))
  | vacate n l q hl hr h =>
    exact State.LeasesInRange.agrees h
      ((hs.putLease (k := none) nofun).putEntry (quarantineEntry_inRange (hr hp (hs.1 n l hl))))
  | create n l hl hx ha hr h =>
    refine State.LeasesInRange.agrees h ((hs.putLease (n := n) (k := some l) ?_).putEntry (held_inRange n))
    rintro _ ⟨⟩
    exact hr hp
  | move n l k q hl hx ha hr h =>
    obtain ⟨hk, hq⟩ := hr hp (hs.1 n l hl)
    refine State.LeasesInRange.agrees h
      (((hs.putEntry (quarantineEntry_inRange hq)).putEntry (held_inRange n)).putLease ?_)
    rintro _ ⟨⟩
    exact hk

end Sys2Proof.Machine

/-! ## The operations as changes of the table

Each operation of the model, in the order of the model's files, is some number of the changes above. -/
namespace Sys2Proof.Machine
set_option Elab.async false

/-! ### The ranges that the operations need -/

section
variable {s : State} (h : s.ParamsInRange)
include h

theorem State.ParamsInRange.suspectAfter : 1 ≤ s.params.suspectAfter ∧ s.params.suspectAfter ≤ s.params.lostAfter :=
  of_decide_eq_true (h .suspectAfter (by decide))

theorem State.ParamsInRange.leaseTerm : 1 ≤ s.params.leaseTerm ∧ s.params.leaseTerm ≤ 255 :=
  of_decide_eq_true (h .leaseTerm (by decide))

theorem State.ParamsInRange.quarantineMin : s.params.quarantineMin ≤ 255 :=
  of_decide_eq_true (h .quarantineMin (by decide))

theorem State.ParamsInRange.windowSize : s.params.windowSize = 16 ∨ s.params.windowSize = 256 :=
  of_decide_eq_true (h .windowSize (by decide))

theorem State.ParamsInRange.offerQuarantine : s.offerQuarantine ≤ 1275 := by
  have ht := h.leaseTerm
  have hq := h.quarantineMin
  unfold State.offerQuarantine
  omega

end

/-- The fields of a lease that are in range whatever its status. -/
def Lease.countsInRange (p : Params) (l : Lease) : Prop :=
  1 ≤ l.cadence ∧ l.cadence ≤ 8 ∧ 1 ≤ l.cadenceCount ∧ l.cadenceCount ≤ l.cadence ∧
    l.windowAttempts < p.windowSize ∧ l.windowBad ≤ l.windowAttempts ∧ l.lastWindowBad.getD 0 ≤ 256

theorem Lease.inRange_iff {p : Params} {l : Lease} :
    l.inRange p = true ↔ l.status.inRange p = true ∧ l.countsInRange p := by
  simp [Lease.inRange, Lease.countsInRange]

/-- A new status in its range leaves the lease in its ranges. -/
theorem Lease.inRange_withStatus {p : Params} {l : Lease} {st : LeaseStatus} (hl : l.inRange p = true)
    (hst : st.inRange p = true) : ({ l with status := st } : Lease).inRange p = true :=
  Lease.inRange_iff.mpr ⟨hst, (Lease.inRange_iff.mp hl).2⟩

/-- Other counts in their ranges, under the same status, leave the lease in its ranges. -/
theorem Lease.inRange_withCounts {p : Params} {l k : Lease} (hl : l.inRange p = true)
    (hk : l.countsInRange p → k.countsInRange p) (hst : k.status = l.status := by rfl) : k.inRange p = true := by
  obtain ⟨hs, hc⟩ := Lease.inRange_iff.mp hl
  exact Lease.inRange_iff.mpr ⟨hst ▸ hs, hk hc⟩

theorem LeaseStatus.inRange_bound {p : Params} {term miss : Nat} :
    (LeaseStatus.bound term miss).inRange p = true ↔ 1 ≤ term ∧ term ≤ 1020 ∧ miss < p.suspectAfter := by
  simp [LeaseStatus.inRange]

theorem LeaseStatus.inRange_suspect {p : Params} {term miss : Nat} :
    (LeaseStatus.suspect term miss).inRange p = true ↔ 1 ≤ term ∧ term ≤ 1020 ∧ miss < p.lostAfter := by
  simp [LeaseStatus.inRange]

theorem LeaseStatus.inRange_lost {p : Params} {q : Nat} : (LeaseStatus.lost q).inRange p = true ↔ q ≤ 1275 := by
  simp [LeaseStatus.inRange]

theorem LeaseStatus.inRange_releasing {p : Params} {term : Nat} :
    (LeaseStatus.releasing term).inRange p = true ↔ 1 ≤ term ∧ term ≤ 1020 := by
  simp [LeaseStatus.inRange]

/-- The status of a lease in its ranges, under the constructor it has. -/
theorem Lease.status_inRange {p : Params} {l : Lease} {st : LeaseStatus} (hst : l.status = st)
    (hl : l.inRange p = true) : st.inRange p = true := hst ▸ (Lease.inRange_iff.mp hl).1

/-- The term of LEASE_TERM is a term in range (R115). -/
theorem State.ParamsInRange.boundFresh {s : State} {units : Nat} (h : s.ParamsInRange) (h1 : 1 ≤ units)
    (h2 : units ≤ 255) : (LeaseStatus.bound (4 * units) 0).inRange s.params = true := by
  have hs := h.suspectAfter
  rw [LeaseStatus.inRange_bound]
  omega

/-- A new lease is in its ranges when its status is. -/
theorem newLease_inRange {s : State} (h : s.ParamsInRange) {st : LeaseStatus} (hst : st.inRange s.params = true)
    (x : Identity) (a : Address) (cls : Option Byte) (o : Origin) :
    (newLease st x a cls o).inRange s.params = true := by
  have hw := h.windowSize
  refine Lease.inRange_iff.mpr ⟨hst, ?_⟩
  simp only [Lease.countsInRange, newLease, Option.getD_none]
  omega

/-- Lengthening a quarantine keeps the holder (R10). -/
theorem lengthenEntry_holder (q : Nat) (e : AddrEntry) : (lengthenEntry q e).holder = e.holder := by
  cases e with
  | free => exact quarantineEntry_holder q
  | quarantined n => rw [lengthenEntry]; split <;> rfl
  | held n => rfl

theorem lengthenEntry_inRange {q : Nat} {e : AddrEntry} (hq : q ≤ 1275) (he : e.InRange) :
    (lengthenEntry q e).InRange := by
  cases e with
  | free => exact quarantineEntry_inRange hq
  | quarantined n =>
    rw [lengthenEntry]
    split
    · exact he
    · exact ⟨fun h => by cases h; omega, hq⟩
  | held n => exact he

/-! ### The searches -/

/-- A slot found for an identity holds a lease with it. -/
theorem findIdentity_eq_some {s : State} {x : Identity} {n : Slot} (h : s.findIdentity x = some n) :
    ∃ l, s.lease n = some l ∧ l.identity = x := by
  have hp := List.find?_some h
  cases hl : s.lease n with
  | none => simp [hl] at hp
  | some l => exact ⟨l, rfl, by simpa [hl] using hp⟩

/-- An identity that is not found is held by no lease. -/
theorem findIdentity_eq_none {s : State} {x : Identity} (h : s.findIdentity x = none) :
    ∀ m : Slot, ∀ k ∈ s.lease m, k.identity ≠ x := by
  intro m k hk
  have hp := List.find?_eq_none.mp h m (List.mem_finRange m)
  simpa [Option.mem_def.mp hk] using hp

/-- The slot found FREE is FREE. -/
theorem freeSlot_eq_some {s : State} {n : Slot} (h : s.freeSlot = some n) : s.lease n = none := by
  simpa using List.find?_some h

/-- The address chosen for an offer is FREE (R11). -/
theorem chooseAddress_eq_some {s : State} {hint : Byte} {a : Address} (h : s.chooseAddress hint = some a) :
    s.entry a = .free := by
  have lowest (h : allAddresses.find? (fun b => s.entry b == .free) = some a) : s.entry a = .free := by
    simpa using List.find?_some h
  unfold State.chooseAddress at h
  split at h
  · split at h
    · next hb =>
      cases h
      exact hb
    · exact lowest h
  · exact lowest h

/-- A matched lease stands in its slot (R7). -/
theorem matched_eq_some {s : State} {n : Slot} {x : Identity} {a : TrunkAddress} {l : Lease}
    (h : s.matched n x a = some l) : s.lease n = some l := by
  unfold State.matched at h
  split at h
  · split at h
    · next hl _ =>
      cases h
      exact hl
    · cases h
  · cases h

/-- An address that is not HELD has no holder. -/
theorem holder_of_not_isHeld {s : State} {a : Address} (h : ¬s.isHeld a = true) : (s.entry a).holder = none := by
  unfold State.isHeld at h
  cases he : s.entry a with
  | held n => simp [he] at h
  | free => rfl
  | quarantined q => rfl

namespace State.EditsTo

/-- A fold of operations each of which edits the table. -/
theorem foldl {α : Type} {f : State → α → State} (h : ∀ (s : State) (a : α), s.EditsTo (f s a)) (xs : List α) (s : State) :
    s.EditsTo (xs.foldl f s) := by
  induction xs generalizing s with
  | nil => exact refl s
  | cons x xs ih => exact (h s x).trans (ih _)

/-! ### Lease records and the Address Map -/

/-- A lease keeps its identity and its address. -/
theorem putLease {s : State} {n : Slot} {l k : Lease} (hl : s.lease n = some l)
    (hr : s.ParamsInRange → l.inRange s.params = true → k.inRange s.params = true)
    (hx : k.identity = l.identity := by rfl) (ha : k.address = l.address := by rfl) :
    s.EditsTo (s.putLease n (some k)) := one (.revise n l k hl hx ha hr ⟨rfl, rfl⟩)

/-- A lease takes another status, perhaps with other fields, and keeps its identity and its address. -/
theorem changeStatus {s : State} {n : Slot} {l k : Lease} {st : LeaseStatus} (hl : s.lease n = some l)
    (hr : s.ParamsInRange → l.inRange s.params = true → ({ k with status := st } : Lease).inRange s.params = true)
    (hx : k.identity = l.identity := by rfl) (ha : k.address = l.address := by rfl) :
    s.EditsTo (s.changeStatus n k st) := one (.revise n l { k with status := st } hl hx ha hr ⟨rfl, rfl⟩)

theorem vacate {s : State} {n : Slot} {l : Lease} {q : Nat} (hl : s.lease n = some l)
    (hr : s.ParamsInRange → l.inRange s.params = true → q ≤ 1275) : s.EditsTo (s.vacate n l q) :=
  one (.vacate n l q hl hr ⟨rfl, rfl⟩)

theorem createLease {s : State} {n : Slot} {st : LeaseStatus} {x : Identity} {a : Address} {cls : Option Byte} {o : Origin}
    (hn : s.freeSlot = some n) (hx : s.findIdentity x = none) (ha : (s.entry a).holder = none)
    (hr : s.ParamsInRange → st.inRange s.params = true) : s.EditsTo (s.createLease n (newLease st x a cls o)) :=
  one (.create n _ (freeSlot_eq_some hn) (findIdentity_eq_none hx) ha
    (fun hp => newLease_inRange hp (hr hp) x a cls o) ⟨rfl, rfl⟩)

/-! ### The Poll Ring and its walk -/

theorem setCadenceCount {s : State} {n : Slot} {l : Lease} {c : Nat} (hl : s.lease n = some l)
    (hc : 1 ≤ l.cadence → 1 ≤ l.cadenceCount → l.cadenceCount ≤ l.cadence → 1 ≤ c ∧ c ≤ l.cadence) :
    s.EditsTo (s.setCadenceCount n l c) := by
  refine putLease hl fun _ hr => ?_
  obtain ⟨hst, hl1, hl8, hc1, hcl, hw⟩ := Lease.inRange_iff.mp hr
  obtain ⟨hc1', hcl'⟩ := hc hl1 hc1 hcl
  exact Lease.inRange_iff.mpr ⟨hst, hl1, hl8, hc1', hcl', hw⟩

theorem visit (ms : List RingMember) (s : State) : s.EditsTo (s.visit ms).1 := by
  induction ms generalizing s with
  | nil => exact refl s
  | cons m ms ih =>
    unfold State.visit
    split
    · exact ih s
    · split
      · exact (ih _).afterSame
      · next l hl =>
        split
        · exact (setCadenceCount (c := l.cadence) hl (by omega)).andSame
        · exact ((setCadenceCount (c := l.cadenceCount - 1) hl (by omega)).andSame (u := State.markVisited _ _)).trans (ih _)

theorem walk (fuel : Nat) (s : State) : s.EditsTo (s.walk fuel) := by
  induction fuel generalizing s with
  | zero =>
    have h := visit s.poll.ring s
    unfold State.walk
    split <;> next t e => (rw [e] at h; exact h.andSame)
  | succ fuel ih =>
    have h := visit s.poll.ring s
    unfold State.walk
    split <;> rename_i t e <;> rw [e] at h
    · exact h
    · split
      · exact (h.trans (same (t := (t.countRound.clearMarks.setScheduler .round)))).trans (ih _)
      · exact h.andSame

theorem walkStep (s : State) : s.EditsTo s.walkStep := walk s.roundBound s

theorem pollSettle (s : State) : s.EditsTo s.pollSettle := by
  unfold State.pollSettle
  split
  · exact walkStep s
  · exact refl s

theorem beginRound (s : State) : s.EditsTo s.beginRound :=
  (same (t := s.clearMarks.setScheduler .round)).trans (walkStep _)

theorem joinRing (n : Slot) (s : State) : s.EditsTo (s.joinRing n) := by
  unfold State.joinRing
  dsimp only
  split
  · exact (beginRound _).afterSame
  · exact same

/-! ### Losing a lease, abandoning an offer, the quality window -/

/-- A lease becomes LOST with a quarantine in its range. -/
theorem loseLease {s : State} {n : Slot} {l : Lease} {q : Nat} (hl : s.lease n = some l)
    (hq : s.ParamsInRange → l.inRange s.params = true → q ≤ 1275) : s.EditsTo (s.loseLease n l q) :=
  (changeStatus hl fun hp hr => Lease.inRange_withStatus hr (LeaseStatus.inRange_lost.mpr (hq hp hr))).andSame

theorem abandonOffer {n : Slot} {q : Nat} {s : State} (hq : s.ParamsInRange → q ≤ 1275) :
    s.EditsTo (s.abandonOffer n q) := by
  unfold State.abandonOffer
  split
  · exact same
  · next l hl =>
    split
    · exact (vacate hl fun hp _ => hq hp).andSame
    · exact (changeStatus hl fun _ hr => Lease.inRange_withStatus hr rfl).andSame
    · exact (changeStatus hl fun hp hr =>
        Lease.inRange_withStatus hr (LeaseStatus.inRange_lost.mpr (hq hp))).andSame
    · exact same

theorem countAttempt (n : Slot) (x : Identity) (a : TrunkAddress) (bad : Bool) (s : State) :
    s.EditsTo (s.countAttempt n x a bad) := by
  unfold State.countAttempt
  split
  · exact refl s
  · next l hm =>
    have hl := matched_eq_some hm
    have hbads : (if bad then l.windowBad + 1 else l.windowBad) ≤ l.windowBad + 1 := by split <;> omega
    dsimp only
    generalize (if bad then l.windowBad + 1 else l.windowBad) = bads at hbads ⊢
    split
    · next hc =>
      have closed : s.EditsTo (s.putLease n (some { l with
          windowAttempts := 0, windowBad := 0
          lastWindowBad := some bads
          windowsClosed := l.windowsClosed + 1
          poor := decide (s.params.qualityLimit ≠ 0 ∧ s.params.qualityLimit < bads) })) := by
        refine putLease hl fun hp hr => Lease.inRange_withCounts hr fun hcs => ?_
        have hw := hp.windowSize
        simp only [Lease.countsInRange, Option.getD_some] at hcs ⊢
        omega
      have judged (t : State) (h : s.EditsTo t) :
          s.EditsTo (if decide (s.params.qualityLimit ≠ 0 ∧ s.params.qualityLimit < bads) = l.poor then t
            else t.handOver n .quality) := cond (fun _ => h) fun _ => h.andSame
      exact cond (fun _ => (judged _ closed).andSame) fun _ => judged _ closed
    · refine putLease hl fun _ hr => Lease.inRange_withCounts hr fun hcs => ?_
      simp only [Lease.countsInRange] at hcs ⊢
      omega

/-! ### Requests of the Lease Table (1.5, 1.7) -/

theorem setFieldsRequest (tag : Byte) (args : List Byte) (s : State) : s.EditsTo (setFieldsRequest tag args s) := by
  unfold Machine.setFieldsRequest
  split
  · split
    · exact same
    · split
      · exact same
      · split
        · exact same
        · next hc l hl =>
          split
          · exact same
          · refine (putLease hl ?_ ?_ ?_).andSame
            · refine fun _ hr => Lease.inRange_withCounts hr (fun hcs => ?_) (by unfold Lease.withFields; split <;> rfl)
              unfold Lease.withFields
              split
              · exact hcs
              · simp only [Lease.countsInRange] at hcs ⊢
                omega
            · unfold Lease.withFields; split <;> rfl
            · unfold Lease.withFields; split <;> rfl
  · exact same

theorem pinRequest (tag : Byte) (args : List Byte) (s : State) : s.EditsTo (pinRequest tag args s) := by
  unfold Machine.pinRequest
  split
  · dsimp only
    split
    · exact same
    · next a _ =>
      split
      · exact same
      · next hx =>
        split
        · exact same
        · next ha =>
          split
          · exact same
          · next n hn => exact (createLease hn hx (by rw [not_not.mp ha]; rfl) fun _ => rfl).andSame
  · exact same

/-! ### Census (chapter 06) -/

theorem walkOrWait (s : State) : s.EditsTo s.walkOrWait := by
  unfold State.walkOrWait
  split
  · exact same
  · split <;> exact same

theorem censusWalk (s : State) : s.EditsTo s.censusWalk := by
  unfold State.censusWalk
  split
  · exact (walkOrWait _).afterSame
  · exact walkOrWait s

/-- An address takes at least a quarantine of `q` seconds, unless it is HELD (R10). -/
theorem lengthen {a : Address} {q : Nat} {s : State} (hq : s.ParamsInRange → q ≤ 1275) :
    s.EditsTo (s.putEntry a (lengthenEntry q (s.entry a))) :=
  one (.withhold a _ (lengthenEntry_holder q _) (fun hp he => lengthenEntry_inRange (hq hp) he) ⟨rfl, rfl⟩)

theorem offerRelease (a : Address) (r : ReleaseReason) (s : State) : s.EditsTo (s.offerRelease a r) := by
  have hq : s.ParamsInRange → s.params.quarantineMin ≤ 1275 := fun hp => hp.quarantineMin.trans (by decide)
  unfold State.offerRelease
  dsimp only
  split
  · exact lengthen hq
  · split
    · exact lengthen hq
    · exact (lengthen hq).andSame

theorem conflictAt (a : Address) (s : State) : s.EditsTo (s.conflictAt a) := (offerRelease a .conflict s).andSame

/-- A LOST lease is bound again where it stands, or at an address that is not HELD (R140). -/
theorem rebind {n : Slot} {l : Lease} {q : Nat} {a : Address} {cls : Byte} {units : Nat} {s : State}
    (hl : s.lease n = some l) (hst : l.status = .lost q) (ha : l.address ≠ a → (s.entry a).holder = none)
    (h1 : 1 ≤ units) (h2 : units ≤ 255) : s.EditsTo (s.rebind n l q a cls units) := by
  have hr (hp : s.ParamsInRange) (hr : l.inRange s.params = true) :
      ({ rebound l a cls with status := .bound (4 * units) 0 } : Lease).inRange s.params = true := by
    refine Lease.inRange_withStatus (Lease.inRange_withCounts hr fun hcs => ?_) (hp.boundFresh h1 h2)
    simp only [Lease.countsInRange, rebound] at hcs ⊢
    omega
  unfold State.rebind
  dsimp only
  refine trans (t := State.countAdopted _) ?_ (joinRing n _)
  split
  · next e => exact (changeStatus hl hr rfl e.symm).andSame
  · next e =>
    exact one (.move n l { rebound l a cls with status := .bound (4 * units) 0 } q hl rfl (ha e)
      (fun hp h => ⟨hr hp h, LeaseStatus.inRange_lost.mp (Lease.status_inRange hst h)⟩) ⟨rfl, rfl⟩)

theorem adopt {x : Identity} {a : Address} {cls : Byte} {units : Nat} {s : State} (hx : s.findIdentity x = none)
    (ha : (s.entry a).holder = none) (h1 : 1 ≤ units) (h2 : units ≤ 255) : s.EditsTo (s.adopt x a cls units) := by
  unfold State.adopt
  split
  · next n hn =>
    exact (createLease hn hx ha fun hp => hp.boundFresh h1 h2).trans ((same (t := State.countAdopted _)).trans (joinRing n _))
  · refine (lengthen fun hp => ?_).andSame
    have := hp.quarantineMin
    omega

theorem takeAnswer {a : Address} {x : Identity} {cls : Byte} {units : Nat} {s : State} (h1 : 1 ≤ units)
    (h2 : units ≤ 255) : s.EditsTo (s.takeAnswer a x cls units) := by
  unfold State.takeAnswer
  split
  · split
    · exact refl s
    · next n _ l hl =>
      split
      · next hla =>
        split
        · next q hst => exact rebind hl hst (fun h => absurd hla h) h1 h2
        · exact refl s
      · split
        · exact offerRelease a .redirect s
        · next q hst =>
          split
          · exact conflictAt a s
          · next hh => exact rebind hl hst (fun _ => holder_of_not_isHeld hh) h1 h2
        · exact conflictAt a s
  · next hx =>
    split
    · exact conflictAt a s
    · next hh => exact adopt hx (holder_of_not_isHeld hh) h1 h2

theorem judgeProbe (a : Address) (o : AttemptOutcome) (payload : List Byte) (s : State) :
    s.EditsTo (s.judgeProbe a o payload) := by
  unfold State.judgeProbe
  split
  · exact refl s
  · exact refl s
  · exact (offerRelease a .clash s).andSame
  · dsimp only
    split
    · exact refl s
    · next hu => exact takeAnswer (Nat.pos_of_ne_zero hu) (Nat.le_of_lt_succ (payload.getD 7 0).isLt)

theorem probeTaken (s : State) : s.EditsTo s.probeTaken := by
  unfold State.probeTaken
  dsimp only
  split
  · split
    · exact (censusWalk _).afterSame
    · exact same
  all_goals exact (censusWalk _).afterSame

theorem probeDone (t : Txn) (o : AttemptOutcome) (s : State) : s.EditsTo (s.probeDone t o) := by
  unfold State.probeDone
  split
  · next a _ =>
    refine (judgeProbe a o (t.reply.getD []) s).trans ?_
    dsimp only
    split
    · split
      · exact probeTaken _
      · exact same
    · exact same
  · exact refl s

theorem beginSweep (first last : Address) (mode : CensusMode) (s : State) : s.EditsTo (s.beginSweep first last mode) := by
  unfold State.beginSweep
  dsimp only
  split
  · exact same
  all_goals exact (censusWalk _).afterSame

theorem takeStep (s : State) : s.EditsTo s.takeStep := by
  unfold State.takeStep
  split
  · exact censusWalk s
  · exact same
  · exact refl s

theorem censusStartRequest (tag : Byte) (args : List Byte) (s : State) : s.EditsTo (censusStartRequest tag args s) := by
  unfold Machine.censusStartRequest
  split
  · split
    · next first last mode _ _ _ =>
      split
      · exact (beginSweep first last mode s).andSame
      · split
        · exact (beginSweep first last mode s).andSame
        · exact same
    · exact same
  · exact same

theorem censusStopRequest (tag : Byte) (args : List Byte) (s : State) : s.EditsTo (censusStopRequest tag args s) := by
  unfold Machine.censusStopRequest
  split
  · dsimp only
    split <;> exact same
  · exact same

theorem censusStepRequest (tag : Byte) (args : List Byte) (s : State) : s.EditsTo (censusStepRequest tag args s) := by
  unfold Machine.censusStepRequest
  split
  · split
    · exact same
    · exact (takeStep s).andSame
  · exact same

/-! ### Enrolment (chapter 04) -/

/-- A lease becomes OFFERED at its own address with the class of a JOIN (R79 to R81). -/
theorem rejoin {n : Slot} {l : Lease} {prior : Prior} {j : Join} {s : State} (hl : s.lease n = some l) :
    s.EditsTo (s.rejoin n l prior j) :=
  (changeStatus (k := { l with cls := some j.cls }) hl fun _ hr => Lease.inRange_withStatus hr rfl).andSame

theorem newcomer {j : Join} {s : State} (hx : s.findIdentity j.identity = none) : s.EditsTo (s.newcomer j) := by
  unfold State.newcomer
  split
  · exact same
  · split
    · exact same
    · next n hn =>
      split
      · exact same
      · next a ha =>
        exact (createLease hn hx (by rw [chooseAddress_eq_some ha]; rfl) fun _ => rfl).andSame

theorem takeJoin (j : Join) (s : State) : s.EditsTo (s.takeJoin j) := by
  unfold State.takeJoin
  split
  · next hx => exact newcomer hx
  · next n _ =>
    split
    · exact refl s
    · next l hl =>
      have gone : s.EditsTo ((s.rejoin n l .lost j).leaveRing n).pollSettle :=
        ((rejoin hl).andSame).trans (pollSettle _)
      split
      · exact refl s
      · exact rejoin hl
      · exact rejoin hl
      · exact gone
      · exact gone
      · exact refl s

theorem takeResults (seen : List Identity) (results : List SubSlotResult) (s : State) :
    s.EditsTo (s.takeResults seen results) := by
  induction results generalizing seen s with
  | nil => exact refl s
  | cons r rest ih =>
    cases r with
    | empty => exact ih seen s
    | collided => exact ih seen s
    | join j =>
      unfold State.takeResults
      split
      · exact ih seen s
      · exact (takeJoin j s).trans (ih _ _)

theorem evaluateSolicit (results : List SubSlotResult) (s : State) : s.EditsTo (s.evaluateSolicit results) := by
  unfold State.evaluateSolicit
  split
  · exact refl s
  all_goals exact takeResults [] results s

theorem bindOffer {n : Slot} {l : Lease} {s : State} (hl : s.lease n = some l) : s.EditsTo (s.bindOffer n l) := by
  refine (changeStatus (k := { l with cadenceCount := 1, lastStatus := none })
    (st := .bound (s.params.leaseTerm * 4) 0) hl fun hp hr => ?_).trans
      ((same (t := State.dropOffer n _)).trans (joinRing n _))
  rw [Nat.mul_comm]
  refine Lease.inRange_withStatus (Lease.inRange_withCounts hr fun hcs => ?_)
    (hp.boundFresh hp.leaseTerm.1 hp.leaseTerm.2)
  simp only [Lease.countsInRange] at hcs ⊢
  omega

theorem offerDone (t : Txn) (o : AttemptOutcome) (s : State) : s.EditsTo (s.offerDone t o) := by
  unfold State.offerDone
  split
  · next n x _ _ =>
    split
    · exact refl s
    · next l ho =>
      have hl : s.lease n = some l := by
        unfold State.offeredLease at ho
        split at ho
        · next hm =>
          split at ho
          · cases ho
            exact matched_eq_some hm
          · cases ho
        · cases ho
      have given := abandonOffer (n := n) (s := s) (fun hp => hp.offerQuarantine)
      split
      · exact bindOffer hl
      · exact given
      · exact given
      · exact refl s
  · exact refl s

/-! ### Polling (chapter 05) -/

theorem storeStatus {n : Slot} {k l : Lease} {w : Half} {s : State} (hk : s.lease n = some k)
    (hr : s.ParamsInRange → k.inRange s.params = true → l.inRange s.params = true)
    (hx : l.identity = k.identity := by rfl) (ha : l.address = k.address := by rfl) :
    s.EditsTo (s.storeStatus n l w) := by
  have put : s.EditsTo (s.putLease n (some { l with lastStatus := some w })) :=
    putLease hk (fun hp h => Lease.inRange_withCounts (hr hp h) id) hx ha
  unfold State.storeStatus
  dsimp only
  split
  · exact put
  · exact put.andSame

theorem renew {n : Slot} {l : Lease} (wasSuspect : Bool) (w : Half) {s : State} (hl : s.lease n = some l) :
    s.EditsTo (s.renew n l wasSuspect w) := by
  have stored : s.EditsTo (s.storeStatus n { l with status := .bound (s.params.leaseTerm * 4) 0 } w) := by
    refine storeStatus hl fun hp hr => Lease.inRange_withStatus hr ?_
    rw [Nat.mul_comm]
    exact hp.boundFresh hp.leaseTerm.1 hp.leaseTerm.2
  unfold State.renew
  dsimp only
  split
  · exact stored.andSame
  · exact stored

/-- A poll that fails leaves its lease LOST, SUSPECT, or BOUND with one more miss, each in its range (R117). -/
theorem countMiss {n : Slot} {l : Lease} {term miss : Nat} {wasSuspect : Bool} {s : State} (hl : s.lease n = some l)
    (hst : l.status = .bound term miss ∨ l.status = .suspect term miss) :
    s.EditsTo (s.countMiss n l term miss wasSuspect) := by
  have hterm (hr : l.inRange s.params = true) : 1 ≤ term ∧ term ≤ 1020 := by
    rcases hst with h | h
    · have := LeaseStatus.inRange_bound.mp (Lease.status_inRange h hr)
      omega
    · have := LeaseStatus.inRange_suspect.mp (Lease.status_inRange h hr)
      omega
  unfold State.countMiss
  dsimp only
  split
  · refine loseLease hl fun hp hr => ?_
    have := hp.quarantineMin
    have := hterm hr
    omega
  · next hlost =>
    have suspect (hr : l.inRange s.params = true) :
        ({ l with status := .suspect term (miss + 1) } : Lease).inRange s.params = true := by
      have := hterm hr
      exact Lease.inRange_withStatus hr (LeaseStatus.inRange_suspect.mpr (by omega))
    split
    · exact putLease hl fun _ hr => suspect hr
    · split
      · exact changeStatus hl fun _ hr => suspect hr
      · refine putLease hl fun _ hr => ?_
        have := hterm hr
        exact Lease.inRange_withStatus hr (LeaseStatus.inRange_bound.mpr (by omega))

theorem pollEffect (t : Txn) (o : AttemptOutcome) (s : State) : s.EditsTo (s.pollEffect t o) := by
  unfold State.pollEffect
  split
  · split
    · exact refl s
    · next hm =>
      have hl := matched_eq_some hm
      split
      · exact renew false _ hl
      · exact renew true _ hl
      · next hst => exact countMiss hl (.inl hst)
      · next hst => exact countMiss hl (.inl hst)
      · next hst => exact countMiss hl (.inr hst)
      · next hst => exact countMiss hl (.inr hst)
      · exact refl s
  · exact refl s

theorem pollTaken (n : Slot) (s : State) : s.EditsTo (s.pollTaken n) := by
  unfold State.pollTaken
  split
  · split <;> exact same
  · exact same

theorem pollDone (t : Txn) (o : AttemptOutcome) (s : State) : s.EditsTo (s.pollDone t o) := by
  unfold State.pollDone
  split
  · exact ((pollEffect t o s).trans (pollTaken _ _)).trans (pollSettle _)
  · exact refl s

theorem setPollMode (mode : PollMode) (s : State) : s.EditsTo (s.setPollMode mode) := by
  unfold State.setPollMode
  split
  · exact refl s
  · split
    · exact same
    · exact cond (fun _ => (beginRound _).afterSame) (fun _ => same)

theorem pollControlRequest (tag : Byte) (args : List Byte) (s : State) : s.EditsTo (pollControlRequest tag args s) := by
  unfold Machine.pollControlRequest
  split
  · split
    · exact same
    · exact (setPollMode _ s).andSame
  · exact same

theorem pollRoundRequest (tag : Byte) (args : List Byte) (s : State) : s.EditsTo (pollRoundRequest tag args s) := by
  unfold Machine.pollRoundRequest
  split
  · split
    · exact same
    · split
      · exact same
      · exact (beginRound s).andSame
  · exact same

/-! ### Retirement (1.6, 7.1, 7.2) -/

theorem endReleasing (n : Slot) (full : Bool) (s : State) : s.EditsTo (s.endReleasing n full) := by
  unfold State.endReleasing
  split
  · next l hl =>
    split
    · next term hst =>
      refine vacate hl fun hp hr => ?_
      have := hp.quarantineMin
      have := LeaseStatus.inRange_releasing.mp (Lease.status_inRange hst hr)
      split <;> omega
    · exact refl s
  · exact refl s

theorem completeRelease (t : Txn) (o : AttemptOutcome) (n : Slot) (tag : Byte) (a : Address) (s : State) :
    s.EditsTo (s.completeRelease t o n tag a) := by
  unfold State.completeRelease
  exact (cond (fun _ => endReleasing n _ s) (fun _ => refl s)).andSame

theorem releaseDone (t : Txn) (o : AttemptOutcome) (s : State) : s.EditsTo (s.releaseDone t o) := by
  unfold State.releaseDone
  split
  · exact refl s
  · split
    · exact (completeRelease t o _ _ _ _).afterSame
    all_goals exact same

theorem forcedQuarantine_le {s : State} {l : Lease} (hp : s.ParamsInRange) (hr : l.inRange s.params = true) :
    s.forcedQuarantine l ≤ 1275 := by
  have hq := hp.quarantineMin
  unfold State.forcedQuarantine
  split
  · exact Nat.zero_le _
  · exact hp.offerQuarantine
  · next hst =>
    have := LeaseStatus.inRange_bound.mp (Lease.status_inRange hst hr)
    omega
  · next hst =>
    have := LeaseStatus.inRange_suspect.mp (Lease.status_inRange hst hr)
    omega
  · next hst => exact LeaseStatus.inRange_lost.mp (Lease.status_inRange hst hr)
  · next hst =>
    have := LeaseStatus.inRange_releasing.mp (Lease.status_inRange hst hr)
    omega

theorem retireNow {n : Slot} {l : Lease} {s : State} (hl : s.lease n = some l) : s.EditsTo (s.retireNow n l) :=
  ((vacate hl forcedQuarantine_le).trans (same (t := State.dropOffer n (State.leaveRing n _)))).trans (pollSettle _)

theorem retireForcedRequest (tag : Byte) (args : List Byte) (s : State) : s.EditsTo (retireForcedRequest tag args s) := by
  unfold Machine.retireForcedRequest
  split
  · split
    · exact same
    · split
      · exact same
      · split
        · exact same
        · next hl =>
          split
          · exact same
          · exact (retireNow hl).andSame
  · exact same

/-- The lease of a slot becomes RELEASING with its term frozen (R149). -/
theorem startReleasing {n : Slot} {l : Lease} {term : Nat} {s : State} (hl : s.lease n = some l)
    (hterm : l.inRange s.params = true → 1 ≤ term ∧ term ≤ 1020) : s.EditsTo (s.startReleasing n l term) :=
  ((changeStatus hl fun _ hr => Lease.inRange_withStatus hr (LeaseStatus.inRange_releasing.mpr (hterm hr))).trans
    (same (t := State.leaveRing n _))).trans (pollSettle _)

theorem retireByRelease {n : Slot} {l : Lease} {term : Nat} {tag : Byte} {s : State} (hl : s.lease n = some l)
    (hterm : l.inRange s.params = true → 1 ≤ term ∧ term ≤ 1020) : s.EditsTo (s.retireByRelease n l term tag) := by
  have started (rs : List Release) : s.EditsTo (((s.setReleases rs).startReleasing n l term).defer .retire) :=
    ((startReleasing (s := s.setReleases rs) hl hterm).afterSame).andSame
  unfold State.retireByRelease
  split
  · split
    · exact same
    · exact started _
  · split
    · exact same
    · exact started _

theorem retireGracefulRequest (tag : Byte) (args : List Byte) (s : State) :
    s.EditsTo (retireGracefulRequest tag args s) := by
  unfold Machine.retireGracefulRequest
  split
  · split
    · exact same
    · split
      · exact same
      · next hl =>
        split
        · exact same
        · next hst =>
          refine retireByRelease hl fun hr => ?_
          have := LeaseStatus.inRange_bound.mp (Lease.status_inRange hst hr)
          omega
        · next hst =>
          refine retireByRelease hl fun hr => ?_
          have := LeaseStatus.inRange_suspect.mp (Lease.status_inRange hst hr)
          omega
        · exact same
  · exact same

end State.EditsTo
end Sys2Proof.Machine

namespace Sys2Proof.Machine
set_option Elab.async false
namespace State.EditsTo

/-! ### The Trunk Engine (chapters 02 and 03) -/

theorem answerDisable (s : State) : s.EditsTo s.answerDisable := by
  unfold State.answerDisable
  split <;> exact same

theorem enterOff (s : State) : s.EditsTo s.enterOff := (answerDisable _).afterSame

theorem relayDone (t : Txn) (o : AttemptOutcome) (s : State) : s.EditsTo (s.relayDone t o) := by
  unfold State.relayDone
  split <;> exact same

/-- The outcome of a transaction at its owner (Table 3-5). -/
theorem txnDone (t : Txn) (o : AttemptOutcome) (s : State) : s.EditsTo (s.txnDone t o) := by
  unfold State.txnDone
  split
  · exact pollDone t o s
  · exact refl s
  · exact offerDone t o s
  · exact releaseDone t o s
  · exact probeDone t o s
  · exact relayDone t o s

theorem countTxnAttempt (t : Txn) (o : AttemptOutcome) (s : State) : s.EditsTo (s.countTxnAttempt t o) := by
  unfold State.countTxnAttempt
  split
  · exact countAttempt _ _ _ _ s
  · exact countAttempt _ _ _ _ s
  · exact refl s

theorem countFailedOffer (t : Txn) (s : State) : s.EditsTo (s.countFailedOffer t) := by
  unfold State.countFailedOffer
  split <;> exact same

theorem endAttempt (ended : Nat) (o : AttemptOutcome) (payload : Option (List Byte)) (s : State) :
    s.EditsTo (s.endAttempt ended o payload) := by
  unfold State.endAttempt
  split
  · exact refl s
  · exact cond (fun _ => (countTxnAttempt _ o s).trans (txnDone _ o _).afterSame)
      fun _ => (countTxnAttempt _ o s).trans (countFailedOffer _ _).afterSame

theorem endListen (ended : Nat) (s : State) : s.EditsTo (s.endListen ended) := (evaluateSolicit _ _).afterSame

theorem endListenFrame (short : Bool) (now : Nat) (s : State) : s.EditsTo (s.endListenFrame short now) :=
  cond (fun _ => (endListen now _).afterSame) fun _ => same

theorem endReply (short : Bool) (ended : Nat) (s : State) : s.EditsTo (s.endReply short ended) := by
  unfold State.endReply
  split
  · exact refl s
  · split
    · exact refl s
    · split <;> exact endAttempt _ _ _ s

theorem idleTimeout (s : State) : s.EditsTo s.idleTimeout :=
  cond (fun _ => cond (fun _ => (endListenFrame _ _ _).afterSame) fun _ => (endReply _ _ _).afterSame) fun _ => refl s

theorem windowTimeout (s : State) : s.EditsTo s.windowTimeout :=
  cond (fun _ => (endAttempt _ _ _ _).afterSame) fun _ => refl s

theorem listenTimeout (s : State) : s.EditsTo s.listenTimeout :=
  cond (fun _ => (endListen _ _).afterSame) fun _ => refl s

theorem catchUp (t : Nat) (s : State) : s.EditsTo (s.catchUp t) :=
  (cond (fun _ => idleTimeout s) fun _ => refl s).trans
    (cond (fun _ => cond (fun _ => listenTimeout _) fun _ => refl _)
      fun _ => cond (fun _ => windowTimeout _) fun _ => refl _)

theorem beginCharacter (t : Nat) (s : State) : s.EditsTo (s.beginCharacter t) := by
  unfold State.beginCharacter
  split <;> exact same

theorem startCharacter (t : Nat) (s : State) : s.EditsTo (s.startCharacter t) :=
  cond (fun _ => (catchUp _ s).trans (beginCharacter _ _)) fun _ => refl s

theorem gatherReply (c : RxChar) (t : Nat) (s : State) : s.EditsTo (s.gatherReply c t) := by
  unfold State.gatherReply
  refine cond (fun _ => endReply true t s) fun _ => ?_
  dsimp only
  split
  · exact cond (fun _ => (endReply _ _ _).afterSame) fun _ => same
  · exact cond (fun _ => (endReply _ _ _).afterSame) fun _ => same

theorem gatherListen (c : RxChar) (t : Nat) (s : State) : s.EditsTo (s.gatherListen c t) :=
  cond (fun _ => cond (fun _ => (endListen t _).afterSame) fun _ => same)
    fun _ => cond (fun _ => (endListenFrame _ _ _).afterSame) fun _ => same

theorem receiveCharacter (c : RxChar) (s : State) : s.EditsTo (s.receiveCharacter c) := by
  have begun : s.EditsTo (if s.engine.reception.charBegan = none then s.startCharacter s.presumedBegin else s) :=
    cond (fun _ => startCharacter _ s) fun _ => refl s
  unfold State.receiveCharacter
  dsimp only
  generalize (if s.engine.reception.charBegan = none then s.startCharacter s.presumedBegin else s) = u at begun ⊢
  refine begun.trans ?_
  split
  · exact cond (fun _ => (gatherListen c _ _).afterSame) fun _ => (gatherReply c _ _).afterSame
  · exact refl _

/-! ### Grants (3.3) -/

theorem grantOffer (o : Offer) (s : State) : s.EditsTo (s.grantOffer o) := by
  unfold State.grantOffer
  split <;> exact same

theorem grantPoll (n : Slot) (s : State) : s.EditsTo (s.grantPoll n) := by
  unfold State.grantPoll
  split <;> exact same

theorem grantLow (s : State) : s.EditsTo s.grantLow := by
  unfold State.grantLow
  split
  · exact same
  · split
    · exact grantPoll _ s
    · split <;> exact same

theorem arbitrateRelays (queue : List Relay) (s : State) : s.EditsTo (s.arbitrateRelays queue) := by
  induction queue generalizing s with
  | nil =>
    unfold State.arbitrateRelays
    split
    · exact grantPoll _ s
    · exact grantLow s
  | cons e rest ih =>
    unfold State.arbitrateRelays
    split
    · exact grantPoll _ s
    · split
      · exact same
      · split
        · split
          · exact same
          · exact (ih _).afterSame
        · exact (ih _).afterSame

theorem arbitrate (s : State) : s.EditsTo s.arbitrate := by
  unfold State.arbitrate
  split
  · exact grantOffer _ s
  · exact same
  · exact arbitrateRelays _ s

/-! ### Trunk faults and trunk control (3.4, 3.5) -/

theorem leaveTrunk (s : State) : s.EditsTo s.leaveTrunk := by
  unfold State.leaveTrunk
  split
  · exact enterOff s
  · exact same

theorem abortForFault (s : State) : s.EditsTo s.abortForFault := by
  unfold State.abortForFault
  split
  · exact refl s
  · split
    · exact leaveTrunk s
    · exact (txnDone _ _ _).afterSame.trans (leaveTrunk _)

theorem dropLease (s : State) (n : Slot) : s.EditsTo (s.dropLease n) := by
  have hq : s.ParamsInRange → s.params.quarantineMin ≤ 1275 := fun hp => hp.quarantineMin.trans (by decide)
  unfold State.dropLease
  split
  · exact refl s
  · next hl =>
    split
    · exact loseLease hl fun hp _ => hq hp
    · exact loseLease hl fun hp _ => hq hp
    · exact abandonOffer hq
    · exact refl s

theorem settleReleases (full withData : Bool) (r : Result) (es : List Release) (s : State) :
    s.EditsTo (s.settleReleases full withData r es) := by
  induction es generalizing s with
  | nil => exact refl s
  | cons e rest ih =>
    unfold State.settleReleases
    split
    · exact ((endReleasing _ full s).andSame).trans (ih _)
    all_goals exact ih s

theorem takeFaultDrop (s : State) : s.EditsTo s.takeFaultDrop := by
  have dropped := foldl dropLease allSlots s
  unfold State.takeFaultDrop
  dsimp only
  generalize allSlots.foldl State.dropLease s = t at dropped ⊢
  have settled := dropped.trans ((settleReleases false true .lineFault s.releases
    (State.setReleases [] { t with enrol := { t.enrol with offers := [] } })).afterSame)
  exact (settled.andSame (u := State.raise .faultDrop _)).trans (pollSettle _)

theorem dropEvent (s : State) : s.EditsTo s.dropEvent :=
  cond (fun _ => (takeFaultDrop _).afterSame) fun _ => refl s

theorem enableTrunk (s : State) : s.EditsTo s.enableTrunk := cond (fun _ => same) fun _ => refl s

theorem enableRequest (tag : Byte) (args : List Byte) (s : State) : s.EditsTo (enableRequest tag args s) := by
  unfold Machine.enableRequest
  split
  · split
    · exact same
    · split
      · exact same
      · exact (enableTrunk s).andSame
  · exact same

theorem disableRequest (tag : Byte) (args : List Byte) (s : State) : s.EditsTo (disableRequest tag args s) := by
  unfold Machine.disableRequest
  split
  · exact same
  · split
    · exact same
    · exact (enterOff s).andSame
    · exact (enterOff s).andSame
    · exact same

theorem cancelRelays (es : List Relay) (s : State) : s.EditsTo (s.cancelRelays es) := by
  induction es generalizing s with
  | nil => exact refl s
  | cons e rest ih => exact (ih _).afterSame

theorem settlePolling (s : State) : s.EditsTo s.settlePolling :=
  cond (fun _ => (beginRound _).afterSame) fun _ => same

theorem resetTrunk (s : State) : s.EditsTo s.resetTrunk := by
  have cancelled := (cancelRelays s.relays (s.setRelays [])).afterSame (s := s)
  unfold State.resetTrunk
  dsimp only
  generalize State.cancelRelays s.relays (s.setRelays []) = t at cancelled ⊢
  have settled := (cancelled.andSame (u := t.setReleases [])).trans (settleReleases true false .cancelled s.releases _)
  generalize State.settleReleases true false .cancelled s.releases (t.setReleases []) = u at settled ⊢
  have abandoned := settled.trans (foldl (f := fun u (o : Offer) => u.abandonOffer o.slot u.offerQuarantine)
    (fun u o => abandonOffer fun hp => hp.offerQuarantine) s.enrol.offers u)
  generalize s.enrol.offers.foldl (fun u o => u.abandonOffer o.slot u.offerQuarantine) u = v at abandoned ⊢
  have idle := abandoned.trans ((settlePolling (State.settleCensus { v with
    enrol := { v.enrol with offers := [], solicitDue := false } })).afterSame)
  generalize State.settlePolling (State.settleCensus { v with
    enrol := { v.enrol with offers := [], solicitDue := false } }) = w at idle ⊢
  exact idle.trans (enterOff _).afterSame

theorem resetTrunkRequest (tag : Byte) (args : List Byte) (s : State) : s.EditsTo (resetTrunkRequest tag args s) :=
  (resetTrunk s).andSame

/-! ### Requests that leave the table as it is -/

theorem removeChanges (ns : List Slot) (s : State) : s.EditsTo (s.removeChanges ns) := foldl (fun _ _ => same) ns s

theorem clearChanges (s : State) : s.EditsTo s.clearChanges := cond (fun _ => same) fun _ => refl s

theorem readChangesRequest (tag : Byte) (args : List Byte) (s : State) : s.EditsTo (readChangesRequest tag args s) := by
  unfold Machine.readChangesRequest
  split
  · split
    · exact ((removeChanges (s.changeSet.take _) s).trans (clearChanges _)).andSame
    · exact same
  · exact same

theorem causeControlRequest (tag : Byte) (args : List Byte) (s : State) : s.EditsTo (causeControlRequest tag args s) := by
  unfold Machine.causeControlRequest
  split
  · split
    · exact same
    · exact cond (fun _ => same) fun _ => same
  · exact same

theorem readCausesRequest (tag : Byte) (args : List Byte) (s : State) : s.EditsTo (readCausesRequest tag args s) := by
  unfold Machine.readCausesRequest
  split <;> exact same

theorem readEngineRequest (tag : Byte) (args : List Byte) (s : State) : s.EditsTo (readEngineRequest tag args s) := by
  unfold Machine.readEngineRequest
  split <;> exact same

theorem readConfigRequest (tag : Byte) (args : List Byte) (s : State) : s.EditsTo (readConfigRequest tag args s) := by
  unfold Machine.readConfigRequest
  split
  · exact cond (fun _ => same) fun _ => same
  · exact same

theorem readSlotRequest (tag : Byte) (args : List Byte) (s : State) : s.EditsTo (readSlotRequest tag args s) := by
  unfold Machine.readSlotRequest
  split
  · split <;> exact same
  · exact same

theorem lookupIdentityRequest (tag : Byte) (args : List Byte) (s : State) :
    s.EditsTo (lookupIdentityRequest tag args s) := by
  unfold Machine.lookupIdentityRequest
  split
  · split
    · exact same
    · split <;> exact same
  · exact same

theorem lookupAddressRequest (tag : Byte) (args : List Byte) (s : State) :
    s.EditsTo (lookupAddressRequest tag args s) := by
  unfold Machine.lookupAddressRequest
  split
  · split <;> exact same
  · exact same

theorem ringMoveRequest (tag : Byte) (args : List Byte) (s : State) : s.EditsTo (ringMoveRequest tag args s) := by
  unfold Machine.ringMoveRequest
  split
  · split
    · exact cond (fun _ => same) fun _ => cond (fun _ => same) fun _ => cond (fun _ => same) fun _ => same
    · exact same
  · exact same

theorem setEnrolModeRequest (tag : Byte) (args : List Byte) (s : State) : s.EditsTo (setEnrolModeRequest tag args s) := by
  unfold Machine.setEnrolModeRequest
  split
  · split <;> exact same
  · exact same

theorem admitAddRequest (tag : Byte) (args : List Byte) (s : State) : s.EditsTo (admitAddRequest tag args s) := by
  unfold Machine.admitAddRequest
  split
  · exact cond (fun _ => same) fun _ => cond (fun _ => same) fun _ => same
  · exact same

theorem admitRemoveRequest (tag : Byte) (args : List Byte) (s : State) : s.EditsTo (admitRemoveRequest tag args s) := by
  unfold Machine.admitRemoveRequest
  split
  · exact cond (fun _ => same) fun _ => same
  · exact same

theorem admitClearRequest (tag : Byte) (args : List Byte) (s : State) : s.EditsTo (admitClearRequest tag args s) := by
  unfold Machine.admitClearRequest
  split <;> exact same

theorem admitReadRequest (tag : Byte) (args : List Byte) (s : State) : s.EditsTo (admitReadRequest tag args s) := by
  unfold Machine.admitReadRequest
  split
  · refine cond (fun _ => same) fun _ => ?_
    split <;> exact same
  · exact same

theorem censusStatusRequest (tag : Byte) (args : List Byte) (s : State) : s.EditsTo (censusStatusRequest tag args s) := by
  unfold Machine.censusStatusRequest
  split <;> exact same

theorem relayRequest (tag : Byte) (args : List Byte) (s : State) : s.EditsTo (relayRequest tag args s) := by
  unfold Machine.relayRequest
  split
  · refine cond (fun _ => same) fun _ => ?_
    split
    · dsimp only
      split
      · exact cond (fun _ => same) fun _ => same
      · exact cond (fun _ => cond (fun _ => same) fun _ => same) fun _ => same
    · exact same
  · exact same

theorem relayCancelRequest (tag : Byte) (args : List Byte) (s : State) : s.EditsTo (relayCancelRequest tag args s) := by
  unfold Machine.relayCancelRequest
  split
  · exact cond (fun _ => same) fun _ => cond (fun _ => same) fun _ => same
  · exact same

theorem echoRequest (tag : Byte) (args : List Byte) (s : State) : s.EditsTo (echoRequest tag args s) :=
  cond (fun _ => same) fun _ => same

theorem badFrameRequest (e : ReqEntry) (s : State) : s.EditsTo (badFrameRequest e s) := by
  cases e <;> exact same

theorem unknownRequestAnswer (e : ReqEntry) (s : State) : s.EditsTo (unknownRequestAnswer e s) := by
  cases e <;> exact same

/-! ### The host port (9.1 to 9.3) -/

theorem takeLength (b : Byte) (s : State) : s.EditsTo (s.takeLength b) :=
  cond (fun _ => cond (fun _ => same) fun _ => same) fun _ => cond (fun _ => same) fun _ => same

theorem assemble (b : Byte) (a : Assembly) (s : State) : s.EditsTo (s.assemble b a) := by
  cases a with
  | expectLength => exact takeLength b s
  | inFrame n got => exact cond (fun _ => same) fun _ => same
  | skip m => exact same
  | discard => exact refl s

theorem sendByte (out : ResponseByte) (s : State) : s.EditsTo (s.sendByte out) := by
  cases out <;> exact same

/-! ### The seconds strobe (1.4) -/

theorem strobeEntry_holder (e : AddrEntry) : (strobeEntry e).holder = e.holder := by
  cases e with
  | quarantined n => rw [strobeEntry]; split <;> rfl
  | free => rfl
  | held n => rfl

theorem strobeEntry_inRange {e : AddrEntry} (he : e.InRange) : (strobeEntry e).InRange := by
  cases e with
  | quarantined n =>
    obtain ⟨-, hn⟩ := he
    rw [strobeEntry]
    split
    · exact ⟨nofun, Nat.zero_le _⟩
    · exact ⟨fun h => by have := AddrEntry.quarantined.inj h; omega, (Nat.sub_le n 1).trans hn⟩
  | free => exact he
  | held n => exact he

theorem strobeAddress (s : State) (a : Address) : s.EditsTo (s.strobeAddress a) :=
  one (.withhold a _ (strobeEntry_holder _) (fun _ he => strobeEntry_inRange he) ⟨rfl, rfl⟩)

theorem strobeLease (s : State) (n : Slot) : s.EditsTo (s.strobeLease n) := by
  have hq : s.ParamsInRange → s.params.quarantineMin ≤ 1275 := fun hp => hp.quarantineMin.trans (by decide)
  unfold State.strobeLease
  split
  · exact refl s
  · next l hl =>
    split
    · next hst =>
      refine cond (fun _ => loseLease hl fun hp _ => hq hp) fun hterm => putLease hl fun _ hr => ?_
      have := LeaseStatus.inRange_bound.mp (Lease.status_inRange hst hr)
      exact Lease.inRange_withStatus hr (LeaseStatus.inRange_bound.mpr (by omega))
    · next hst =>
      refine cond (fun _ => loseLease hl fun hp _ => hq hp) fun hterm => putLease hl fun _ hr => ?_
      have := LeaseStatus.inRange_suspect.mp (Lease.status_inRange hst hr)
      exact Lease.inRange_withStatus hr (LeaseStatus.inRange_suspect.mpr (by omega))
    · next hst =>
      refine cond (fun _ => vacate hl fun _ _ => Nat.zero_le _) fun _ => putLease hl fun _ hr => ?_
      have := LeaseStatus.inRange_lost.mp (Lease.status_inRange hst hr)
      exact Lease.inRange_withStatus hr (LeaseStatus.inRange_lost.mpr (by omega))
    · exact refl s

theorem takeStrobe (s : State) : s.EditsTo s.takeStrobe :=
  ((foldl strobeAddress allAddresses s).trans (foldl strobeLease allSlots _)).trans (pollSettle _)

theorem timerStep (s : State) : s.EditsTo s.timerStep := by
  unfold State.timerStep
  split
  · exact cond (fun _ => takeStep s) fun _ => refl s
  · exact cond (fun _ => censusWalk s) fun _ => refl s
  · exact refl s
  · exact refl s

end State.EditsTo
end Sys2Proof.Machine

/-! ## What a step can do to the Lease Table, the Address Map and the Timing Unit -/
namespace Sys2Proof.Machine
set_option Elab.async false

/-! ### A parameter written (R173 to R176) -/

theorem Params.put_get_same (p : Params) (v : Nat) (q : Param) : (p.put v q).get q = v := by cases q <;> rfl

theorem Params.put_get_other (p : Params) (v : Nat) {q r : Param} (h : r ≠ q) : (p.put v q).get r = p.get r := by
  cases q <;> cases r <;> first | rfl | exact absurd rfl h

/-- The range of a parameter depends on no other, but for SUSPECT_AFTER and LOST_AFTER, which bound each other. -/
theorem Params.put_admits (p : Params) (v x : Nat) {q r : Param} (hs : q = .lostAfter → r ≠ .suspectAfter)
    (hl : q = .suspectAfter → r ≠ .lostAfter) : (p.put v q).admits x r = p.admits x r := by
  cases r with
  | suspectAfter => cases q <;> first | rfl | exact absurd rfl (hs rfl)
  | lostAfter => cases q <;> first | rfl | exact absurd rfl (hl rfl)
  | _ => rfl

/-- Every parameter stays in its range when one is written with a value of its range. -/
theorem State.ParamsInRange.put {s t : State} {q : Param} {v : Nat} (hs : s.ParamsInRange)
    (hv : s.params.admits v q = true) (ht : t.params = s.params.put v q) : t.ParamsInRange := by
  have hl : s.params.suspectAfter ≤ s.params.lostAfter ∧ s.params.lostAfter ≤ 15 :=
    of_decide_eq_true (hs .lostAfter (by decide))
  have h1 := hs.suspectAfter
  intro r hr
  rw [ht]
  by_cases hsr : q = .lostAfter ∧ r = .suspectAfter
  · obtain ⟨rfl, rfl⟩ := hsr
    have hv : s.params.suspectAfter ≤ v ∧ v ≤ 15 := of_decide_eq_true hv
    exact decide_eq_true (show 1 ≤ s.params.suspectAfter ∧ s.params.suspectAfter ≤ v by omega)
  · by_cases hlr : q = .suspectAfter ∧ r = .lostAfter
    · obtain ⟨rfl, rfl⟩ := hlr
      have hv : 1 ≤ v ∧ v ≤ s.params.lostAfter := of_decide_eq_true hv
      exact decide_eq_true (show v ≤ s.params.lostAfter ∧ s.params.lostAfter ≤ 15 by omega)
    · rw [Params.put_admits _ _ _ (fun h e => hsr ⟨h, e⟩) fun h e => hlr ⟨h, e⟩]
      by_cases e : r = q
      · rw [e, Params.put_get_same]
        exact hv
      · rw [Params.put_get_other _ _ e]
        exact hs r hr

/-- The lease of a slot, if there is one, is changed. -/
def State.reviseSlot (f : Lease → Lease) (s : State) (n : Slot) : State :=
  match s.lease n with
  | some l => s.putLease n (some (f l))
  | none => s

theorem mapLeases_eq_foldl (f : Lease → Lease) (s : State) : s.mapLeases f = allSlots.foldl (State.reviseSlot f) s := rfl

theorem reviseSlot_frame (f : Lease → Lease) (s : State) (n : Slot) :
    (s.reviseSlot f n).table.map = s.table.map ∧ (s.reviseSlot f n).timing = s.timing := by
  unfold State.reviseSlot
  split <;> exact ⟨rfl, rfl⟩

theorem reviseSlot_lease (f : Lease → Lease) (s : State) (n m : Slot) :
    (s.reviseSlot f n).lease m = if m = n then (s.lease m).map f else s.lease m := by
  unfold State.reviseSlot
  split
  · next l hl =>
    rw [State.putLease_lease]
    split
    · next e => simp [e, hl]
    · rfl
  · next hl =>
    split
    · next e => simp [e, hl]
    · rfl

/-- Changing leases one slot after another leaves the other blocks. -/
theorem mapLeases_frame (f : Lease → Lease) (s : State) :
    (s.mapLeases f).table.map = s.table.map ∧ (s.mapLeases f).timing = s.timing := by
  rw [mapLeases_eq_foldl]
  induction allSlots generalizing s with
  | nil => exact ⟨rfl, rfl⟩
  | cons n ns ih =>
    obtain ⟨hm, hτ⟩ := ih (s.reviseSlot f n)
    obtain ⟨hm', hτ'⟩ := reviseSlot_frame f s n
    exact ⟨hm.trans hm', hτ.trans hτ'⟩

/-- Each slot of a list without repetition is changed once, and no other. -/
theorem foldl_reviseSlot_lease (f : Lease → Lease) (ns : List Slot) (hns : ns.Nodup) (s : State) (m : Slot) :
    (ns.foldl (State.reviseSlot f) s).lease m = if m ∈ ns then (s.lease m).map f else s.lease m := by
  induction ns generalizing s with
  | nil => simp
  | cons n ns ih =>
    obtain ⟨hn, hns⟩ := List.nodup_cons.mp hns
    rw [List.foldl_cons, ih hns, reviseSlot_lease]
    by_cases e : m = n
    · subst e
      simp [hn]
    · simp [e]

/-- Every lease is changed. -/
theorem mapLeases_lease (f : Lease → Lease) (s : State) (n : Slot) : (s.mapLeases f).lease n = (s.lease n).map f := by
  rw [mapLeases_eq_foldl, foldl_reviseSlot_lease f allSlots (List.nodup_finRange _), if_pos (show n ∈ allSlots from List.mem_finRange n)]

/-- What a write of a parameter does to each lease (R176). -/
def writeRevision (q : Param) (before after : Nat) : Lease → Lease :=
  match q with
  | .suspectAfter => Lease.clearMiss
  | .lostAfter => Lease.clearMiss
  | .windowSize => if before = after then id else Lease.restartWindow
  | _ => id

theorem writeEffect_lease (q : Param) (before after : Nat) (s : State) (n : Slot) :
    (s.writeEffect q before after).lease n = (s.lease n).map (writeRevision q before after) := by
  cases q with
  | suspectAfter => exact mapLeases_lease _ s n
  | lostAfter => exact mapLeases_lease _ s n
  | windowSize =>
    unfold State.writeEffect writeRevision
    dsimp only
    split
    · simp
    · exact mapLeases_lease _ s n
  | _ => simp [State.writeEffect, writeRevision]

theorem writeEffect_map (q : Param) (before after : Nat) (s : State) :
    (s.writeEffect q before after).table.map = s.table.map := by
  unfold State.writeEffect
  split
  · rfl
  · exact (mapLeases_frame _ s).1
  · exact (mapLeases_frame _ s).1
  · split
    · rfl
    · exact (mapLeases_frame _ s).1
  · rfl

theorem writeEffect_timing (q : Param) (before after : Nat) (s : State) :
    (s.writeEffect q before after).timing =
      if q = .refclkKhz then { s.timing with prescaler := 0 } else s.timing := by
  cases q with
  | suspectAfter => exact (mapLeases_frame _ s).2
  | lostAfter => exact (mapLeases_frame _ s).2
  | windowSize =>
    unfold State.writeEffect
    dsimp only
    split
    · rfl
    · exact (mapLeases_frame _ s).2
  | _ => rfl

theorem Lease.clearMiss_keeps (l : Lease) : l.clearMiss.identity = l.identity ∧ l.clearMiss.address = l.address := by
  unfold Lease.clearMiss
  split <;> exact ⟨rfl, rfl⟩

/-- A write of a parameter leaves each lease its identity and its address. -/
theorem writeRevision_keeps (q : Param) (before after : Nat) (l : Lease) :
    (writeRevision q before after l).identity = l.identity ∧ (writeRevision q before after l).address = l.address := by
  cases q with
  | suspectAfter => exact l.clearMiss_keeps
  | lostAfter => exact l.clearMiss_keeps
  | windowSize =>
    unfold writeRevision
    dsimp only
    split <;> exact ⟨rfl, rfl⟩
  | _ => exact ⟨rfl, rfl⟩

/-- A lease whose misses are cleared is in range under any other miss bounds above 0. -/
theorem Lease.clearMiss_inRange {p p' : Params} {l : Lease} (hl : l.inRange p = true) (hs : 0 < p'.suspectAfter)
    (ho : 0 < p'.lostAfter) (hw : p'.windowSize = p.windowSize) : l.clearMiss.inRange p' = true := by
  obtain ⟨hst, hc⟩ := Lease.inRange_iff.mp hl
  have hc : l.countsInRange p' := by
    unfold Lease.countsInRange
    rw [hw]
    exact hc
  unfold Lease.clearMiss
  split
  · next h =>
    rw [h, LeaseStatus.inRange_bound] at hst
    exact Lease.inRange_iff.mpr ⟨LeaseStatus.inRange_bound.mpr ⟨hst.1, hst.2.1, hs⟩, hc⟩
  · next h =>
    rw [h, LeaseStatus.inRange_suspect] at hst
    exact Lease.inRange_iff.mpr ⟨LeaseStatus.inRange_suspect.mpr ⟨hst.1, hst.2.1, ho⟩, hc⟩
  · next hb hsu =>
    refine Lease.inRange_iff.mpr ⟨?_, hc⟩
    cases h : l.status with
    | bound term miss => exact absurd h (hb term miss)
    | suspect term miss => exact absurd h (hsu term miss)
    | reserved => rfl
    | offered prior => rfl
    | lost q => rw [h] at hst; exact hst
    | releasing term => rw [h] at hst; exact hst

/-- A write of a parameter with a value of its range leaves each lease in its ranges. -/
theorem writeRevision_inRange {s : State} {q : Param} {v : Nat} {l : Lease} (hp : s.ParamsInRange)
    (hv : s.params.admits v q = true) (hl : l.inRange s.params = true) :
    (writeRevision q (s.params.get q) v l).inRange (s.params.put v q) = true := by
  have h1 := hp.suspectAfter
  cases q with
  | suspectAfter =>
    have hv : 1 ≤ v ∧ v ≤ s.params.lostAfter := of_decide_eq_true hv
    exact Lease.clearMiss_inRange hl (show 0 < v by omega) (show 0 < s.params.lostAfter by omega) rfl
  | lostAfter =>
    have hv : s.params.suspectAfter ≤ v ∧ v ≤ 15 := of_decide_eq_true hv
    exact Lease.clearMiss_inRange hl (show 0 < s.params.suspectAfter by omega) (show 0 < v by omega) rfl
  | windowSize =>
    unfold writeRevision
    dsimp only
    split
    · next e =>
      subst e
      exact hl
    · have hv : v = 16 ∨ v = 256 := of_decide_eq_true hv
      obtain ⟨hst, h1, h8, hc, hcl, -, -, hw⟩ := Lease.inRange_iff.mp hl
      exact Lease.inRange_iff.mpr ⟨hst, h1, h8, hc, hcl, show 0 < v by omega, Nat.le_refl 0, hw⟩
  | _ => exact hl

/-! ### One change, with the Timing Unit -/

/-- One change of the Lease Table, the Address Map and the Timing Unit. -/
inductive State.Change (s t : State) : Prop
  /-- A change of the table alone. -/
  | edit (h : s.Edit t)
  /-- The counts of the Timing Unit move, within their ranges. -/
  | retime (ht : t.table = s.table) (hp : t.params = s.params)
      (hτ : s.ParamsInRange → s.TimersInRange → t.TimersInRange)
  /-- A parameter is written with a value of its range. -/
  | configure (q : Param) (v : Nat) (hv : s.params.admits v q = true)
      (h : t.Agrees ((s.setParams (s.params.put v q)).writeEffect q (s.params.get q) v))
  /-- A reset. -/
  | reset (h : t.Agrees State.reset)

/-- Any number of such changes, one after another. -/
def State.ChangesTo : State → State → Prop := Relation.ReflTransGen State.Change

theorem State.ChangesTo.refl (s : State) : s.ChangesTo s := Relation.ReflTransGen.refl

theorem State.ChangesTo.trans {s t u : State} (h : s.ChangesTo t) (k : t.ChangesTo u) : s.ChangesTo u :=
  Relation.ReflTransGen.trans h k

theorem State.Change.once {s t : State} (h : s.Change t) : s.ChangesTo t := Relation.ReflTransGen.single h

theorem State.EditsTo.changes {s t : State} (h : s.EditsTo t) : s.ChangesTo t := by
  induction h with
  | refl => exact .refl _
  | tail _ he ih => exact ih.tail (.edit he)

/-- What every single change keeps, any number of them keeps. -/
theorem State.ChangesTo.keeps {I : State → Prop} (hI : ∀ s t : State, s.Change t → I s → I t) {s t : State}
    (h : s.ChangesTo t) (hs : I s) : I t := by
  induction h with
  | refl => exact hs
  | tail _ hc ih => exact hI _ _ hc ih

/-- Right after reset every slot is FREE (R30). -/
theorem reset_lease (n : Slot) : State.reset.lease n = none := by simp [State.lease, State.reset, LeaseTable.reset]

/-- Right after reset every address entry is FREE (R30). -/
theorem reset_entry (a : Address) : State.reset.entry a = .free := by simp [State.entry, State.reset, LeaseTable.reset]

theorem reset_mapMatches : State.reset.MapMatches := by
  simp [State.mapMatches_iff, reset_lease, reset_entry, AddrEntry.holder]

theorem reset_identitiesUnique : State.reset.IdentitiesUnique := by simp [State.IdentitiesUnique, reset_lease]

theorem reset_ranges : State.reset.ParamsInRange ∧ State.reset.TimersInRange ∧ State.reset.LeasesInRange := by
  refine ⟨by unfold State.ParamsInRange; decide, by unfold State.TimersInRange; decide, ?_⟩
  simp [State.LeasesInRange, reset_lease, reset_entry, AddrEntry.seconds]

/-- One change keeps the Address Map and the leases in agreement (R8). -/
theorem State.MapMatches.change {s t : State} (hc : s.Change t) (hs : s.MapMatches) : t.MapMatches := by
  cases hc with
  | edit h => exact hs.edit h
  | retime ht hp hτ => simpa only [State.MapMatches, State.lease, State.entry, ht] using hs
  | configure q v hv h =>
    refine State.MapMatches.agrees h (State.mapMatches_iff.mpr fun n a => ?_)
    have he : ((s.setParams (s.params.put v q)).writeEffect q (s.params.get q) v).entry a = s.entry a := by
      simp only [State.entry, writeEffect_map]
      rfl
    rw [he, ← State.mapMatches_iff.mp hs n a, writeEffect_lease, Option.map_map]
    have hf : (fun l : Lease => l.address) ∘ writeRevision q (s.params.get q) v = fun l => l.address :=
      funext fun l => (writeRevision_keeps q _ v l).2
    rw [hf]
    rfl
  | reset h => exact reset_mapMatches.agrees h

/-- One change keeps the identities of the leases distinct (R4). -/
theorem State.IdentitiesUnique.change {s t : State} (hc : s.Change t) (hs : s.IdentitiesUnique) :
    t.IdentitiesUnique := by
  cases hc with
  | edit h => exact hs.edit h
  | retime ht hp hτ => simpa only [State.IdentitiesUnique, State.lease, ht] using hs
  | configure q v hv h =>
    refine State.IdentitiesUnique.agrees h fun n m l hl k hk hx => ?_
    rw [writeEffect_lease] at hl hk
    obtain ⟨l', hl', rfl⟩ := Option.map_eq_some_iff.mp hl
    obtain ⟨k', hk', rfl⟩ := Option.map_eq_some_iff.mp hk
    rw [(writeRevision_keeps q _ v l').1, (writeRevision_keeps q _ v k').1] at hx
    exact hs n m l' hl' k' hk' hx
  | reset h => exact reset_identitiesUnique.agrees h

/-- One change keeps parameters, timers, leases and quarantines in their ranges. -/
theorem ranges_change {s t : State} (hc : s.Change t)
    (hs : s.ParamsInRange ∧ s.TimersInRange ∧ s.LeasesInRange) :
    t.ParamsInRange ∧ t.TimersInRange ∧ t.LeasesInRange := by
  obtain ⟨hp, hτ, hl⟩ := hs
  cases hc with
  | edit h =>
    have ht : t.timing = s.timing := (State.EditsTo.one h).timing
    refine ⟨?_, ?_, hl.edit h hp⟩
    · simpa only [State.ParamsInRange, State.params, ht] using hp
    · simpa only [State.TimersInRange, State.params, ht] using hτ
  | retime ht hpt hτt =>
    refine ⟨?_, hτt hp hτ, ?_⟩
    · simpa only [State.ParamsInRange, hpt] using hp
    · simpa only [State.LeasesInRange, State.lease, State.entry, ht, hpt] using hl
  | configure q v hv h =>
    have hparams : t.params = s.params.put v q := by
      rw [h.params, State.params, writeEffect_timing]
      split <;> rfl
    have hp' := hp.put hv hparams
    refine ⟨hp', ?_, fun n l hn => ?_, fun a => ?_⟩
    · obtain ⟨hpre, hrest⟩ := hτ
      unfold State.TimersInRange
      rw [hparams, h.2, writeEffect_timing]
      split
      · next e =>
        subst e
        have hv : 4000 ≤ v ∧ v ≤ 32000 := of_decide_eq_true hv
        exact ⟨show 0 < v by omega, hrest⟩
      · next e =>
        refine ⟨?_, hrest⟩
        have hk := s.params.put_get_other v (Ne.symm e)
        exact hpre.trans_eq hk.symm
    · rw [h.lease, writeEffect_lease] at hn
      obtain ⟨k, hk, rfl⟩ := Option.map_eq_some_iff.mp hn
      rw [hparams]
      exact writeRevision_inRange hp hv (hl.1 n k hk)
    · have he : t.entry a = s.entry a := by
        rw [h.entry]
        simp only [State.entry, writeEffect_map]
        rfl
      rw [he]
      exact hl.2 a
  | reset h =>
    obtain ⟨hrp, hrτ, hrl⟩ := reset_ranges
    refine ⟨?_, ?_, hrl.agrees h⟩
    · simpa only [State.ParamsInRange, h.params] using hrp
    · simpa only [State.TimersInRange, h.params, h.2] using hrτ

end Sys2Proof.Machine

namespace Sys2Proof.Machine
set_option Elab.async false

/-! ### The events of the Timing Unit (8.1, 8.3) -/

/-- The seconds strobe: nothing, or the count returns to 0 and the table is edited. -/
theorem secondsEvent_cases (s : State) :
    (s.timing.seconds < 1000 ∧ s.secondsEvent = s) ∨
      State.EditsTo { s with timing := { s.timing with seconds := 0 } } s.secondsEvent := by
  unfold State.secondsEvent
  split
  · exact .inr (.takeStrobe _)
  · next h =>
    simp only [State.strobeDue, decide_eq_true_eq, Nat.not_le] at h
    exact .inl ⟨h, rfl⟩

/-- The pace expiry: nothing, or the timer is reloaded and the table is edited. -/
theorem paceEvent_cases (s : State) :
    s.paceEvent = s ∨ State.EditsTo { s with timing := { s.timing with pace := s.params.pollPeriod } } s.paceEvent := by
  unfold State.paceEvent
  split
  · refine .inr ?_
    dsimp only
    split
    · split
      · exact .beginRound _
      · exact .same
      · exact .refl _
    · exact .refl _
  · exact .inl rfl

/-- The solicit expiry: nothing, or the timer is reloaded. -/
theorem solicitEvent_cases (s : State) :
    s.solicitEvent = s ∨
      State.EditsTo { s with timing := { s.timing with solicit := s.params.solicitPeriod } } s.solicitEvent := by
  unfold State.solicitEvent
  split
  · exact .inr (.cond (fun _ => .refl _) fun _ => .same)
  · exact .inl rfl

/-- The census-step expiry: nothing, or the timer is reloaded and the table is edited. -/
theorem censusStepEvent_cases (s : State) :
    s.censusStepEvent = s ∨
      State.EditsTo { s with timing := { s.timing with censusStep := s.params.censusStepMs } } s.censusStepEvent := by
  unfold State.censusStepEvent
  split
  · exact .inr (.timerStep _)
  · exact .inl rfl

/-- Once the events of the last tick are taken, no strobe stands due. -/
theorem takeDue_seconds (s : State) : s.takeDue.timing.seconds < 1000 := by
  have strobe : s.secondsEvent.timing.seconds < 1000 := by
    rcases secondsEvent_cases s with ⟨hs, he⟩ | h
    · rwa [he]
    · rw [h.timing]
      exact Nat.zero_lt_succ 999
  have pace (u : State) : u.paceEvent.timing.seconds = u.timing.seconds := by
    rcases paceEvent_cases u with he | h
    · rw [he]
    · rw [h.timing]
  have solicit (u : State) : u.solicitEvent.timing.seconds = u.timing.seconds := by
    rcases solicitEvent_cases u with he | h
    · rw [he]
    · rw [h.timing]
  have census (u : State) : u.censusStepEvent.timing.seconds = u.timing.seconds := by
    rcases censusStepEvent_cases u with he | h
    · rw [he]
    · rw [h.timing]
  rw [State.takeDue, (State.EditsTo.dropEvent _).timing, census, solicit, pace]
  exact strobe

/-- The periods of the interval timers, and REFCLK_KHZ (Table 8-4). -/
theorem State.ParamsInRange.periods {s : State} (h : s.ParamsInRange) :
    s.params.pollPeriod ≤ 60000 ∧ s.params.solicitPeriod ≤ 60000 ∧ s.params.censusStepMs ≤ 60000 ∧
      0 < s.params.refclkKhz := by
  have hr : 4000 ≤ s.params.refclkKhz ∧ s.params.refclkKhz ≤ 32000 := of_decide_eq_true (h .refclkKhz (by decide))
  have hp : 10 ≤ s.params.pollPeriod ∧ s.params.pollPeriod ≤ 60000 := of_decide_eq_true (h .pollPeriod (by decide))
  have hs : 100 ≤ s.params.solicitPeriod ∧ s.params.solicitPeriod ≤ 60000 :=
    of_decide_eq_true (h .solicitPeriod (by decide))
  have hc : 10 ≤ s.params.censusStepMs ∧ s.params.censusStepMs ≤ 60000 :=
    of_decide_eq_true (h .censusStepMs (by decide))
  omega

namespace State.ChangesTo

/-- A change of other blocks alone. -/
theorem same {s t : State} (h : t.Agrees s := by exact ⟨rfl, rfl⟩) : s.ChangesTo t := (State.EditsTo.same h).changes

/-- The counts of the Timing Unit move within their ranges, and then the table may be edited. -/
theorem retime {s u : State} {τ : Timing} (h : State.EditsTo { s with timing := τ } u)
    (hτ : s.ParamsInRange → s.TimersInRange → State.TimersInRange { s with timing := τ })
    (hp : τ.params = s.timing.params := by rfl) : s.ChangesTo u :=
  (State.Change.once (s := s) (t := { s with timing := τ }) (.retime rfl hp hτ)).trans h.changes

theorem secondsEvent (s : State) : s.ChangesTo s.secondsEvent := by
  rcases secondsEvent_cases s with ⟨-, he⟩ | h
  · rw [he]
    exact refl s
  · refine retime h ?_
    rintro - ⟨hpre, -, hrest⟩
    exact ⟨hpre, Nat.zero_le _, hrest⟩

theorem paceEvent (s : State) : s.ChangesTo s.paceEvent := by
  rcases paceEvent_cases s with he | h
  · rw [he]
    exact refl s
  · refine retime h ?_
    rintro hp ⟨hpre, hsec, -, hrest⟩
    exact ⟨hpre, hsec, hp.periods.1, hrest⟩

theorem solicitEvent (s : State) : s.ChangesTo s.solicitEvent := by
  rcases solicitEvent_cases s with he | h
  · rw [he]
    exact refl s
  · refine retime h ?_
    rintro hp ⟨hpre, hsec, hpace, -, hrest⟩
    exact ⟨hpre, hsec, hpace, hp.periods.2.1, hrest⟩

theorem censusStepEvent (s : State) : s.ChangesTo s.censusStepEvent := by
  rcases censusStepEvent_cases s with he | h
  · rw [he]
    exact refl s
  · refine retime h ?_
    rintro hp ⟨hpre, hsec, hpace, hsol, -⟩
    exact ⟨hpre, hsec, hpace, hsol, hp.periods.2.2.1⟩

theorem takeDue (s : State) : s.ChangesTo s.takeDue :=
  (secondsEvent s).trans ((paceEvent _).trans ((solicitEvent _).trans ((censusStepEvent _).trans
    (State.EditsTo.dropEvent _).changes)))

/-- A tick counts on from a state in which no strobe is due. -/
theorem countTick {s : State} (hs : s.timing.seconds < 1000) : s.ChangesTo s.countTick := by
  refine State.Change.once (.retime rfl rfl ?_)
  rintro hp ⟨-, -, hpace, hsol, hcen⟩
  exact ⟨hp.periods.2.2.2, hs, (Nat.sub_le _ 1).trans hpace, (Nat.sub_le _ 1).trans hsol, (Nat.sub_le _ 1).trans hcen⟩

theorem tickEvent (s : State) : s.ChangesTo s.tickEvent := (takeDue s).trans (countTick (takeDue_seconds s))

theorem refclkPeriod (s : State) : s.ChangesTo s.refclkPeriod := by
  have clock : s.EditsTo (if s.engine.state.timed then
      { s with engine := { s.engine with clock := s.engine.clock + 1 } } else s) :=
    .cond (fun _ => .same) fun _ => .refl s
  unfold State.refclkPeriod
  dsimp only
  generalize (if s.engine.state.timed then
    { s with engine := { s.engine with clock := s.engine.clock + 1 } } else s) = t at clock ⊢
  refine clock.changes.trans ?_
  split
  · exact tickEvent t
  · next h =>
    refine retime (.refl _) fun _ ht => ?_
    obtain ⟨-, hrest⟩ := ht
    exact ⟨Nat.not_le.mp h, hrest⟩

/-! ### CONFIGURE and the resets -/

theorem configureRequest (tag : Byte) (args : List Byte) (s : State) : s.ChangesTo (configureRequest tag args s) := by
  unfold Machine.configureRequest
  split
  · split
    · exact same
    · dsimp only
      split
      · exact same
      · next hv =>
        split
        · exact same
        · exact (State.Change.once (.configure _ _ (Bool.eq_true_of_not_eq_false hv) ⟨rfl, rfl⟩)).trans same
  · exact same

theorem held (pins : Pins) (pending : List Instr) (s : State) : s.ChangesTo (State.held pins pending) :=
  State.Change.once (.reset ⟨rfl, rfl⟩)

theorem restart_edits (s : State) : s.EditsTo s.restart := .cond (fun _ => .same) fun _ => .same

theorem resetBlocks_edits (s : State) : (State.held s.pins s.pending).EditsTo s.resetBlocks :=
  (restart_edits _).afterSame

theorem resetRequest (tag : Byte) (args : List Byte) (s : State) : s.ChangesTo (resetRequest tag args s) := by
  unfold Machine.resetRequest
  split
  · exact (held s.pins s.pending s).trans (resetBlocks_edits s).andSame.changes
  · exact same

/-! ### Commands -/

/-- An event of a part that is out of reset. -/
theorem ofRunning {f : State → State} (hf : ∀ u : State, u.ChangesTo (f u)) {s t : State}
    (h : whenRunning f s = .next t) : s.ChangesTo t := by
  rcases whenRunning_cases h with ⟨-, rfl⟩ | ⟨-, rfl⟩
  · exact refl _
  · exact hf s

/-- An event of a part that is out of reset, which edits the table. -/
theorem ofEvent {f : State → State} (hf : ∀ u : State, u.EditsTo (f u)) {s t : State}
    (h : whenRunning f s = .next t) : s.ChangesTo t := ofRunning (fun u => (hf u).changes) h

/-- The take of an entry of the Request FIFO. -/
theorem ofHead {row : Instr} {handle : ReqEntry → State → State} (hf : ∀ e (u : State), u.ChangesTo (handle e u))
    {s t : State} (h : takeHead row handle s = .next t) : s.ChangesTo t := by
  rcases takeHead_cases h with rfl | ⟨e, rest, -, -, -, -, rfl⟩
  · exact refl _
  · exact (same (t := s.popped rest)).trans (hf e _)

/-- The take of a request. -/
theorem ofRequest {row : Instr} {handle : Byte → List Byte → State → State}
    (hf : ∀ tag args (u : State), u.ChangesTo (handle tag args u)) {s t : State}
    (h : takeRequest row handle s = .next t) : s.ChangesTo t := by
  refine ofHead (fun e u => ?_) h
  cases e with
  | frame bytes => exact hf _ _ u
  | marker b => exact refl u

/-- The take of a request that edits the table. -/
theorem ofEdit {row : Instr} {handle : Byte → List Byte → State → State}
    (hf : ∀ tag args (u : State), u.EditsTo (handle tag args u)) {s t : State}
    (h : takeRequest row handle s = .next t) : s.ChangesTo t := ofRequest (fun tag args u => (hf tag args u).changes) h

theorem execRstAssert {s t : State} (h : execRstAssert s = .next t) : s.ChangesTo t := by
  unfold Machine.execRstAssert at h
  split at h <;> cases h
  · exact refl _
  · exact held _ _ _

theorem execRstRise {s t : State} (h : execRstRise s = .next t) : s.ChangesTo t := by
  unfold Machine.execRstRise at h
  split at h <;> cases h
  · exact (held { s.pins with rstLow := false } s.pending s).trans ((restart_edits _).afterSame).changes
  · exact refl _

theorem execCsFall {s t : State} (h : execCsFall s = .next t) : s.ChangesTo t := by
  unfold Machine.execCsFall at h
  split at h
  · cases h
    exact refl _
  · refine trans same (ofEvent (fun u => .cond (fun _ => .same) fun _ => .refl u) h)

theorem execCsRise {s t : State} (h : execCsRise s = .next t) : s.ChangesTo t := by
  unfold Machine.execCsRise at h
  split at h
  · refine trans same (ofEvent (fun u => ?_) h)
    split <;> exact .same
  · cases h
    exact refl _

theorem execTrunkFaultRising {s t : State} (h : execTrunkFaultRising s = .next t) : s.ChangesTo t := by
  unfold Machine.execTrunkFaultRising at h
  split at h
  · cases h
    exact refl _
  · refine trans same (ofEvent (fun u => (State.EditsTo.abortForFault _).afterSame) h)

theorem execTrunkFaultFalling {s t : State} (h : execTrunkFaultFalling s = .next t) : s.ChangesTo t := by
  unfold Machine.execTrunkFaultFalling at h
  split at h
  · split at h
    · cases h
      exact same
    · injection h with h
      rw [← h]
      exact ((State.EditsTo.dropEvent s).trans (.cond (fun _ => .same) fun _ => .same)).changes
  · cases h
    exact refl _

theorem execFrameSent {s t : State} (h : execFrameSent s = .next t) : s.ChangesTo t := by
  refine ofEvent (fun u => .cond (fun _ => ?_) fun _ => .refl u) h
  split
  · exact .refl u
  · exact .cond (fun _ => .same) fun _ => (State.EditsTo.endAttempt _ _ _ _).afterSame

theorem execGuardEnd {s t : State} (h : execGuardEnd s = .next t) : s.ChangesTo t := by
  refine ofEvent (fun u => .cond (fun _ => ?_) fun _ => .refl u) h
  split
  · exact .same
  · split
    · exact .enterOff u
    · exact .same

theorem execRequestByte {b : Byte} {s t : State} (h : execRequestByte b s = .next t) : s.ChangesTo t := by
  refine ofEvent (fun u => ?_) h
  split
  · exact .assemble b _ u
  · exact .refl u

theorem execResponseByteBegin {s t : State} (h : execResponseByteBegin s = .next t) : s.ChangesTo t := by
  refine ofEvent (fun u => ?_) h
  split
  · exact .same
  · exact .refl u

theorem execResponseByteRead {s t : State} (h : execResponseByteRead s = .next t) : s.ChangesTo t := by
  refine ofEvent (fun u => ?_) h
  split
  · exact (State.EditsTo.sendByte _ u).andSame
  · exact .same
  · exact .refl u

/-- Every command makes only such changes. -/
theorem exec {c : Instr} {s t : State} (h : exec c s = .next t) : s.ChangesTo t := by
  cases c with
  | rstAssert => exact execRstAssert h
  | rstRise => exact execRstRise h
  | csFall => exact execCsFall h
  | accessByte b => exact ofEvent (fun u => .cond (fun _ => .same) fun _ => .refl u) h
  | requestByte b => exact execRequestByte h
  | csRise => exact execCsRise h
  | responseByteRead => exact execResponseByteRead h
  | badFrame => exact ofHead (fun e u => (State.EditsTo.badFrameRequest e u).changes) h
  | unknownRequest => exact ofHead (fun e u => (State.EditsTo.unknownRequestAnswer e u).changes) h
  | echo => exact ofEdit .echoRequest h
  | readEngine => exact ofEdit .readEngineRequest h
  | configure => exact ofRequest configureRequest h
  | readConfig => exact ofEdit .readConfigRequest h
  | enable => exact ofEdit .enableRequest h
  | disable => exact ofEdit .disableRequest h
  | resetTrunk => exact ofEdit .resetTrunkRequest h
  | reset => exact ofRequest resetRequest h
  | causeControl => exact ofEdit .causeControlRequest h
  | readCauses => exact ofEdit .readCausesRequest h
  | readChanges => exact ofEdit .readChangesRequest h
  | readSlot => exact ofEdit .readSlotRequest h
  | lookupIdentity => exact ofEdit .lookupIdentityRequest h
  | lookupAddress => exact ofEdit .lookupAddressRequest h
  | setFields => exact ofEdit .setFieldsRequest h
  | pin => exact ofEdit .pinRequest h
  | retireForced => exact ofEdit .retireForcedRequest h
  | retireGraceful => exact ofEdit .retireGracefulRequest h
  | ringMove => exact ofEdit .ringMoveRequest h
  | setEnrolMode => exact ofEdit .setEnrolModeRequest h
  | admitAdd => exact ofEdit .admitAddRequest h
  | admitRemove => exact ofEdit .admitRemoveRequest h
  | admitClear => exact ofEdit .admitClearRequest h
  | admitRead => exact ofEdit .admitReadRequest h
  | pollControl => exact ofEdit .pollControlRequest h
  | pollRound => exact ofEdit .pollRoundRequest h
  | censusStart => exact ofEdit .censusStartRequest h
  | censusStop => exact ofEdit .censusStopRequest h
  | censusStep => exact ofEdit .censusStepRequest h
  | censusStatus => exact ofEdit .censusStatusRequest h
  | relay => exact ofEdit .relayRequest h
  | relayCancel => exact ofEdit .relayCancelRequest h
  | tick => exact ofRunning tickEvent h
  | secondsStrobe => exact ofRunning secondsEvent h
  | paceExpiry => exact ofRunning paceEvent h
  | solicitExpiry => exact ofRunning solicitEvent h
  | censusStepExpiry => exact ofRunning censusStepEvent h
  | trunkFaultRising => exact execTrunkFaultRising h
  | trunkFaultFalling => exact execTrunkFaultFalling h
  | faultDrop => exact ofEvent .dropEvent h
  | grant => exact ofEvent (fun u => .cond (fun _ => .arbitrate u) fun _ => .refl u) h
  | frameSent => exact execFrameSent h
  | characterReceived data flag parity stop => exact ofEvent (.receiveCharacter _) h
  | replyIdleTimeout => exact ofEvent .idleTimeout h
  | replyWindowTimeout => exact ofEvent .windowTimeout h
  | solicitListenEnd => exact ofEvent .listenTimeout h
  | guardEnd => exact execGuardEnd h
  | startBit began middle => exact ofEvent (fun u => .cond (fun _ => .refl u) fun _ => State.EditsTo.startCharacter began u) h
  | responseByteBegin => exact execResponseByteBegin h

/-- Every step makes only such changes. -/
theorem step {s t : State} (h : step s = .next t) : s.ChangesTo t := by
  unfold Machine.step at h
  split at h
  · next c rest hq => exact (same (t := { s with pending := rest })).trans (exec h)
  · unfold idleStep at h
    split at h
    · cases h
      exact refl _
    · split at h
      · exact exec h
      · cases h
        exact refclkPeriod s

end State.ChangesTo

/-- Settles O53: each change that a step is made of keeps the agreement. -/
theorem everyStepKeepsTheAddressMap : Obligations.EveryStepKeepsTheAddressMap :=
  fun _ _ hs h => (State.ChangesTo.step h).keeps (fun _ _ hc hi => hi.change hc) hs

/-- Settles O54: each change that a step is made of keeps the identities distinct. -/
theorem everyStepKeepsIdentitiesUnique : Obligations.EveryStepKeepsIdentitiesUnique :=
  fun _ _ hs h => (State.ChangesTo.step h).keeps (fun _ _ hc hi => hi.change hc) hs

/-- Settles O59: each change that a step is made of keeps the ranges together. -/
theorem everyStepKeepsTheRanges : Obligations.EveryStepKeepsTheRanges :=
  fun _ _ hs h => (State.ChangesTo.step h).keeps
    (I := fun u => u.ParamsInRange ∧ u.TimersInRange ∧ u.LeasesInRange) (fun _ _ hc hi => ranges_change hc hi) hs

end Sys2Proof.Machine

/-! ## The reset state, and the requests of the Lease Table -/
namespace Sys2Proof.Machine
set_option Elab.async false

/-! ### The reset state (1.8) -/

theorem reset_changeSet : State.reset.changeSet = [] := by
  simp [State.changeSet, State.reset, Causes.held]

/-- Settles O3. -/
theorem resetStateHoldsTheResetValues : Obligations.ResetStateHoldsTheResetValues := by
  refine ⟨reset_lease, reset_entry, rfl, rfl, rfl, rfl, rfl, rfl, rfl, rfl, rfl, rfl, rfl, rfl, rfl, rfl, rfl, rfl, rfl, rfl,
    rfl, rfl, rfl, rfl, rfl, rfl, rfl, rfl, rfl, rfl, rfl, rfl, rfl, rfl, rfl, reset_changeSet, rfl, rfl, rfl, rfl, rfl⟩

/-- Settles O4: the table's invariants hold of an empty table, and every other block is at a fixed value. -/
theorem resetStateIsSound : Obligations.ResetStateIsSound where
  map := reset_mapMatches
  unique := reset_identitiesUnique
  leases := reset_ranges.2.2
  ring := ⟨List.nodup_nil, fun n => by rw [reset_lease]; exact iff_of_false List.not_mem_nil Bool.false_ne_true⟩
  offers := ⟨List.nodup_nil, fun n => by rw [reset_lease]; exact iff_of_false List.not_mem_nil Bool.false_ne_true,
    fun _ => rfl, by decide⟩
  requests := ⟨rfl, by simp [State.reset, HostPort.reset], by decide⟩
  engine := by simp [State.EngineSound, State.reset, Engine.reset]
  params := reset_ranges.1
  timers := reset_ranges.2.1
  queues := ⟨by decide, List.nodup_nil, by decide, List.nodup_nil, by decide⟩
  scheduler := ⟨by decide, by decide⟩
  census := by simp [State.CensusSound, State.reset, Census.reset]
  releases := ⟨by simp [State.reset], fun n => by simp [reset_lease, isReleasing]⟩
  inFlight := rfl
  fault := by simp [State.FaultSound, State.reset, Engine.reset]
  responses := ⟨rfl, by decide, rfl⟩

/-! ### Bytes (1.10) -/

/-- The low byte of a word ends it. -/
theorem extract_append_low {w : Nat} (x : BitVec w) (lo : Byte) : (x ++ lo).extractLsb' 0 8 = lo := by
  apply BitVec.eq_of_getLsbD_eq
  intro i hi
  simp [BitVec.getLsbD_append, hi]

/-- The other bytes of a word are those of the word before it. -/
theorem extract_append_high {w : Nat} (x : BitVec w) (lo : Byte) (k : Nat) :
    (x ++ lo).extractLsb' (k + 8) 8 = x.extractLsb' k 8 := by
  apply BitVec.eq_of_getLsbD_eq
  intro i hi
  have h8 : ¬k + 8 + i < 8 := by omega
  have hk : k + 8 + i - 8 = k + i := by omega
  simp [BitVec.getLsbD_append, hi, h8, hk]

theorem extract_byte (b : Byte) : b.extractLsb' 0 8 = b := BitVec.extractLsb'_eq_self

theorem halfBytes_append (lo hi : Byte) : halfBytes (hi ++ lo) = [lo, hi] := by
  have high : (hi ++ lo).extractLsb' 8 8 = hi := (extract_append_high hi lo 0).trans (extract_byte hi)
  simp only [halfBytes, extract_append_low hi lo, high]

/-- The two bytes of a number. -/
theorem natBytes_eq (v : Nat) : natBytes v = [BitVec.ofNat 8 v, BitVec.ofNat 8 (v / 256)] := by
  have low : (BitVec.ofNat 16 v).extractLsb' 0 8 = BitVec.ofNat 8 v := by
    apply BitVec.eq_of_toNat_eq
    simp only [BitVec.extractLsb'_toNat, BitVec.toNat_ofNat]
    omega
  have high : (BitVec.ofNat 16 v).extractLsb' 8 8 = BitVec.ofNat 8 (v / 256) := by
    apply BitVec.eq_of_toNat_eq
    simp only [BitVec.extractLsb'_toNat, BitVec.toNat_ofNat, Nat.shiftRight_eq_div_pow]
    omega
  simp only [natBytes, halfBytes, low, high]

/-- The six bytes of an identity made of six bytes. -/
theorem identityBytes_append (b0 b1 b2 b3 b4 b5 : Byte) :
    identityBytes (b5 ++ b4 ++ b3 ++ b2 ++ b1 ++ b0) = [b0, b1, b2, b3, b4, b5] := by
  have h1 : (b5 ++ b4 ++ b3 ++ b2 ++ b1 ++ b0).extractLsb' 8 8 = b1 :=
    (extract_append_high _ b0 0).trans (extract_append_low _ b1)
  have h2 : (b5 ++ b4 ++ b3 ++ b2 ++ b1 ++ b0).extractLsb' 16 8 = b2 :=
    (extract_append_high _ b0 8).trans ((extract_append_high _ b1 0).trans (extract_append_low _ b2))
  have h3 : (b5 ++ b4 ++ b3 ++ b2 ++ b1 ++ b0).extractLsb' 24 8 = b3 :=
    (extract_append_high _ b0 16).trans ((extract_append_high _ b1 8).trans ((extract_append_high _ b2 0).trans
      (extract_append_low _ b3)))
  have h4 : (b5 ++ b4 ++ b3 ++ b2 ++ b1 ++ b0).extractLsb' 32 8 = b4 :=
    (extract_append_high _ b0 24).trans ((extract_append_high _ b1 16).trans ((extract_append_high _ b2 8).trans
      ((extract_append_high _ b3 0).trans (extract_append_low _ b4))))
  have h5 : (b5 ++ b4 ++ b3 ++ b2 ++ b1 ++ b0).extractLsb' 40 8 = b5 :=
    (extract_append_high _ b0 32).trans ((extract_append_high _ b1 24).trans ((extract_append_high _ b2 16).trans
      ((extract_append_high _ b3 8).trans ((extract_append_high _ b4 0).trans (extract_byte b5)))))
  simp only [identityBytes, extract_append_low _ b0, h1, h2, h3, h4, h5]

end Sys2Proof.Machine

namespace Sys2Proof.Machine
set_option Elab.async false

/-! ### Masks (Tables 9-8 and 9-9) -/

theorem maskBit_eq (b : Bool) (i : Nat) : maskBit b i = b.toNat * 2 ^ i := by cases b <;> simp [maskBit]

/-- The bits of a READ_SLOT record's presence mask, by number. -/
def Lease.presenceBits (l : Lease) : Fin 16 → Bool :=
  ![true, true, l.cls.isSome, true, l.prior.isSome, l.term.isSome, l.quarantine.isSome, l.miss.isSome, true, true,
    l.lastStatus.isSome, l.label.isSome, true, true, l.lastWindowBad.isSome, true]

theorem Lease.presence_eq_ofBits (l : Lease) : l.presence = Nat.ofBits l.presenceBits := by
  simp only [Lease.presence, maskBit_eq, Lease.presenceBits, Nat.ofBits_succ, Nat.ofBits_zero, Function.comp_def,
    Matrix.cons_val_zero, Matrix.cons_val_succ]
  omega

theorem Lease.presence_getLsbD (l : Lease) {i : Nat} (hi : i < 16) :
    (BitVec.ofNat 16 l.presence).getLsbD i = l.presenceBits ⟨i, hi⟩ := by
  rw [l.presence_eq_ofBits, BitVec.getLsbD_ofNat, Nat.testBit_ofBits_lt _ _ hi, decide_eq_true hi, Bool.true_and]

/-- The bits of a lease summary's presence byte, by number. -/
def Lease.summaryBits (l : Lease) : Fin 8 → Bool :=
  ![true, l.cls.isSome, true, l.timeField.isSome, l.quarantine.isSome, l.miss.isSome, true, false]

theorem Lease.summaryBits_getLsbD (l : Lease) {i : Nat} (hi : i < 8) :
    (byteOf (maskBit true 0 + maskBit l.cls.isSome 1 + maskBit true 2 + maskBit l.timeField.isSome 3 +
      maskBit l.quarantine.isSome 4 + maskBit l.miss.isSome 5 + maskBit true 6)).getLsbD i = l.summaryBits ⟨i, hi⟩ := by
  have h : maskBit true 0 + maskBit l.cls.isSome 1 + maskBit true 2 + maskBit l.timeField.isSome 3 +
      maskBit l.quarantine.isSome 4 + maskBit l.miss.isSome 5 + maskBit true 6 = Nat.ofBits l.summaryBits := by
    simp only [maskBit_eq, Lease.summaryBits, Nat.ofBits_succ, Nat.ofBits_zero, Function.comp_def,
      Matrix.cons_val_zero, Matrix.cons_val_succ, Bool.toNat_false]
    omega
  rw [h, byteOf, BitVec.getLsbD_ofNat, Nat.testBit_ofBits_lt _ _ hi, decide_eq_true hi, Bool.true_and]

/-! ### READ_SLOT (R28) -/

/-- A slot is a member of the Poll Ring when it stands in its list. -/
theorem State.inRing_eq (s : State) (n : Slot) : s.inRing n = decide (n ∈ s.poll.slots) := by
  rw [Bool.eq_iff_iff]
  simp [State.inRing, Scheduler.slots]

/-- The offer_prior byte of a record (R1, R25). -/
theorem Lease.prior_byte (l : Lease) :
    optByte (l.prior.map Prior.code) = match l.status with | .offered p => p.code | _ => 0 := by
  unfold Lease.prior
  cases l.status <;> rfl

/-- The term, quarantine and miss_count bytes of a record (R1, R25). -/
theorem Lease.counts_bytes (l : Lease) :
    optNat l.term ++ optNat l.quarantine ++ [byteOf (l.miss.getD 0)] =
      natBytes (match l.status with | .bound t _ => t | .suspect t _ => t | .releasing t => t | _ => 0) ++
      natBytes (match l.status with | .lost q => q | _ => 0) ++
      [byteOf (match l.status with | .bound _ m => m | .suspect _ m => m | _ => 0)] := by
  unfold Lease.term Lease.quarantine Lease.miss
  cases l.status <;> rfl

/-- The flags byte of a record (Table 9-8). -/
theorem flags_byte (poor inRing : Bool) :
    byteOf (maskBit poor 0 + maskBit true 1 + maskBit inRing 2) =
      byteOf ((if poor then 1 else 0) + 2 + (if inRing then 4 else 0)) := rfl

/-- The fields of a record by their offsets (Table 9-8). -/
theorem slotRecord_layout (n : Slot) (inRing : Bool) (l : Lease) :
    let record := slotRecord n inRing (some l)
    record.length = 32 ∧ record.take 2 = [slotByte n, l.status.code] ∧ (record.drop 2).take 2 = natBytes l.presence ∧
    (record.drop 4).take 6 = identityBytes l.identity ∧
    (record.drop 10).take 4 = [addressByte l.address, optByte l.cls, l.origin.code, optByte (l.prior.map Prior.code)] ∧
    (record.drop 14).take 5 = optNat l.term ++ optNat l.quarantine ++ [byteOf (l.miss.getD 0)] ∧
    (record.drop 19).take 2 = [byteOf l.cadence, byteOf l.cadenceCount] ∧
    (record.drop 21).take 4 = optHalf l.lastStatus ++ optHalf l.label ∧
    (record.drop 25).take 6 = [byteOf l.windowAttempts] ++ natBytes l.windowBad ++ optNat l.lastWindowBad ++
      [l.windowsClosed] ∧
    record.drop 31 = [byteOf (maskBit l.poor 0 + maskBit true 1 + maskBit inRing 2)] := by
  refine ⟨?_, ?_, ?_, ?_, ?_, ?_, ?_, ?_, ?_, ?_⟩ <;>
    simp [slotRecord, natBytes, halfBytes, identityBytes, optNat, optHalf]

/-- The take of READ_SLOT for a slot answers with its record. -/
theorem exec_readSlot_record {s : State} {k tag b : Byte} {rest : List ReqEntry} {n : Slot}
    (h : s.Takes [k, 0x10, tag, b] rest) (hn : b.toNat = n.val) :
    exec .readSlot s = .next ((s.popped rest).replied ([36, 0x10, tag, 0x00] ++
      slotRecord n (decide (n ∈ s.poll.slots)) (s.lease n))) := by
  have length : (slotRecord n (decide (n ∈ s.poll.slots)) (s.lease n)).length = 32 := by
    cases s.lease n with
    | none => rfl
    | some l => exact (slotRecord_layout n _ l).1
  rw [exec_readSlot h, readSlotRequest, slotOf_eq_some.mpr hn]
  dsimp only
  rw [answer_eq_replied, responseFrame, State.inRing_eq, State.popped_lease, State.popped_poll, length]
  rfl

/-- Settles O16: the record is laid out by offset, and the presence mask bit by bit. -/
theorem readSlotReturnsTheRecord : Obligations.ReadSlotReturnsTheRecord := by
  refine ⟨fun lo hi b0 b1 b2 b3 b4 b5 v => ⟨halfBytes_append lo hi, natBytes_eq v, identityBytes_append b0 b1 b2 b3 b4 b5⟩,
    fun _ _ _ => rfl, rfl, rfl, fun s k tag b rest h => ⟨fun hb => ?_, fun n hn => ⟨fun hl => ?_, fun l hl => ?_⟩⟩⟩
  · rw [exec_readSlot h, readSlotRequest, slotOf_eq_none.mpr hb]
    rfl
  · have hb : slotByte n = b := byteOf_toNat hn
    rw [exec_readSlot_record h hn, hl, slotRecord, hb]
    by_cases hm : n ∈ s.poll.slots
    · rw [if_pos hm, decide_eq_true hm]
      rfl
    · rw [if_neg hm, decide_eq_false hm]
      rfl
  · have hb : slotByte n = b := byteOf_toNat hn
    obtain ⟨hlen, hhead, hpres, hid, haddr, hcounts, hcad, hwords, hwindow, hflags⟩ :=
      slotRecord_layout n (decide (n ∈ s.poll.slots)) l
    refine ⟨slotRecord n (decide (n ∈ s.poll.slots)) (some l), by rw [exec_readSlot_record h hn, hl], hlen, hb ▸ hhead, hid,
      haddr.trans ?_, hcounts.trans l.counts_bytes, hcad, hwords, hwindow, hflags.trans ?_,
      BitVec.ofNat 16 l.presence, hpres, fun i hi => (l.presence_getLsbD hi).trans ?_⟩
    · rw [l.prior_byte]
      rfl
    · rw [flags_byte]
      simp only [decide_eq_true_eq]
    · unfold Lease.presenceBits Lease.prior Lease.term Lease.quarantine Lease.miss
      cases l.status <;> interval_cases i <;> rfl

end Sys2Proof.Machine

namespace Sys2Proof.Machine
set_option Elab.async false

/-! ### LOOKUP_IDENTITY and LOOKUP_ADDRESS (R26, R27) -/

/-- The time field of a summary (R26). -/
theorem Lease.timeField_bytes (l : Lease) :
    optNat l.timeField = natBytes (match l.status with
      | .bound t _ => t | .suspect t _ => t | .releasing t => t | .lost q => q | _ => 0) := by
  unfold Lease.timeField Lease.quarantine Lease.term
  cases l.status <;> rfl

/-- The miss_count byte of a summary (R26). -/
theorem Lease.miss_byte (l : Lease) :
    byteOf (l.miss.getD 0) = byteOf (match l.status with | .bound _ m => m | .suspect _ m => m | _ => 0) := by
  unfold Lease.miss
  cases l.status <;> rfl

/-- The nine bytes of a summary, with the bits of its presence byte (Table 9-9). -/
theorem leaseSummary_presence (l : Lease) : ∃ presence : Byte,
    leaseSummary l = [l.status.code, presence, byteOf (addressNumber l.address), l.cls.getD 0, l.origin.code] ++
      natBytes (match l.status with
        | .bound t _ => t | .suspect t _ => t | .releasing t => t | .lost q => q | _ => 0) ++
      [byteOf (match l.status with | .bound _ m => m | .suspect _ m => m | _ => 0), if l.poor then 1 else 0] ∧
    ∀ i, (hi : i < 8) → presence.getLsbD i = l.summaryBits ⟨i, hi⟩ := by
  refine ⟨_, ?_, fun i hi => l.summaryBits_getLsbD hi⟩
  rw [← l.timeField_bytes, ← l.miss_byte]
  rfl

/-- A take of LOOKUP_IDENTITY that finds a lease. -/
theorem exec_lookupIdentity_found {s : State} {k tag b0 b1 b2 b3 b4 b5 : Byte} {rest : List ReqEntry} {n : Slot} {l : Lease}
    (h : s.Takes [k, 0x11, tag, b0, b1, b2, b3, b4, b5] rest) (hu : s.IdentitiesUnique) (hl : s.lease n = some l)
    (hx : l.identity = b5 ++ b4 ++ b3 ++ b2 ++ b1 ++ b0) :
    exec .lookupIdentity s =
      .next ((s.popped rest).replied ([14, 0x11, tag, 0x00, byteOf n.val] ++ leaseSummary l)) := by
  have found : (s.popped rest).findIdentity (identityOf b0 b1 b2 b3 b4 b5) = some n := findIdentity_some hu hl hx
  rw [exec_lookupIdentity h]
  simp only [lookupIdentityRequest, found, State.popped_lease, hl]
  rfl

/-- A take of LOOKUP_ADDRESS of an address of the map. -/
theorem exec_lookupAddress_entry {s : State} {k tag b : Byte} {rest : List ReqEntry} {a : Address}
    (h : s.Takes [k, 0x12, tag, b] rest) (ha : b.toNat = addressNumber a) :
    exec .lookupAddress s = .next ((s.popped rest).answer .lookupAddress tag .ok
      ([b, (s.entry a).code] ++ s.entryReport a)) := by
  rw [exec_lookupAddress h, lookupAddressRequest, addressOf_of_number ha]
  rfl

/-- Settles O17. -/
theorem lookupsReportLeasesAndAddresses : Obligations.LookupsReportLeasesAndAddresses := by
  refine ⟨fun s k tag rest hu => ⟨fun b0 b1 b2 b3 b4 b5 h => ⟨fun n l hl hx => exec_lookupIdentity_found h hu hl hx,
    fun hx => ?_⟩, fun b h => ⟨fun hb => ?_, fun a ha => ⟨fun he => ?_, fun q he => ?_, fun n l he hl => ?_⟩⟩⟩, fun l => ?_⟩
  · have unknown : (s.popped rest).findIdentity (identityOf b0 b1 b2 b3 b4 b5) = none := findIdentity_none hx
    rw [exec_lookupIdentity h, lookupIdentityRequest, unknown]
    rfl
  · rw [exec_lookupAddress h, lookupAddressRequest, addressOf_outside hb]
    rfl
  · rw [exec_lookupAddress_entry h ha, State.entryReport, he]
    rfl
  · rw [exec_lookupAddress_entry h ha, State.entryReport, he]
    rfl
  · rw [exec_lookupAddress_entry h ha, State.entryReport, he]
    simp only [hl]
    rfl
  · obtain ⟨presence, hbytes, hbits⟩ := leaseSummary_presence l
    refine ⟨presence, hbytes, fun i hi => (hbits i hi).trans ?_⟩
    unfold Lease.summaryBits Lease.timeField Lease.quarantine Lease.term Lease.miss
    cases l.status <;> interval_cases i <;> rfl

/-! ### SET_FIELDS (R29) -/

/-- The label that an action of 0 to 2 leaves (Table 9-7). -/
theorem labelAction_eq {action : Byte} (ha : action.toNat ≤ 2) (w : Half) (old : Option Half) :
    labelAction action w old = some (if action.toNat = 0 then old else if action.toNat = 1 then some w else none) := by
  have hz (n : Nat) (hn : n < 256) : action = BitVec.ofNat 8 n ↔ action.toNat = n := by
    rw [← BitVec.toNat_inj, BitVec.toNat_ofNat, Nat.mod_eq_of_lt hn]
  have h0 := hz 0 (by decide)
  have h1 := hz 1 (by decide)
  have h2 := hz 2 (by decide)
  unfold labelAction
  interval_cases h : action.toNat <;> simp_all

/-- Settles O22: the checks in order, then the one record written. -/
theorem setFieldsChangesCadenceAndLabel : Obligations.SetFieldsChangesCadenceAndLabel := by
  refine fun s k tag b c action lo hi rest h => ⟨fun hbad => ?_, fun n hn hc ha => ⟨fun hl => ?_, fun l hl => ?_⟩⟩
  · rw [exec_setFields h]
    unfold setFieldsRequest
    dsimp only
    cases hb : slotOf b with
    | none => rfl
    | some n =>
      have hn := slotOf_eq_some.mp hb
      have hn64 : n.val < 64 := n.isLt
      dsimp only
      rw [if_pos (by omega)]
      rfl
  · rw [exec_setFields h]
    simp only [setFieldsRequest, slotOf_eq_some.mpr hn, State.popped_lease, hl]
    rw [if_neg (by omega)]
    rfl
  · have hb : slotByte n = b := byteOf_toNat hn
    rw [exec_setFields h]
    simp only [setFieldsRequest, slotOf_eq_some.mpr hn, State.popped_lease, hl, labelAction_eq ha, hb]
    rw [if_neg (by omega)]
    unfold Lease.withFields
    by_cases hc0 : c.toNat = 0
    · simp only [hc0, if_true]
      rfl
    · simp only [hc0, if_false]
      rfl

end Sys2Proof.Machine

namespace Sys2Proof.Machine
set_option Elab.async false

/-! ### PIN (R19) -/

/-- The answer of a PIN whose address exists and whose identity is unknown. -/
theorem exec_pin_unknown {s : State} {k tag b0 b1 b2 b3 b4 b5 ad : Byte} {rest : List ReqEntry} {a : Address}
    (h : s.Takes [k, 0x14, tag, b0, b1, b2, b3, b4, b5, ad] rest) (ha : ad.toNat = addressNumber a)
    (hx : ∀ n : Slot, ∀ l ∈ s.lease n, l.identity ≠ b5 ++ b4 ++ b3 ++ b2 ++ b1 ++ b0) :
    exec .pin s = .next (
      if s.entry a ≠ .free then (s.popped rest).answer .pin tag .addressBusy [s.holderByte a]
      else
        match s.freeSlot with
        | none => (s.popped rest).answer .pin tag .full []
        | some n => ((s.popped rest).createLease n (newLease .reserved (b5 ++ b4 ++ b3 ++ b2 ++ b1 ++ b0) a none
            .pinned)).answer .pin tag .ok [slotByte n]) := by
  have unknown : (s.popped rest).findIdentity (identityOf b0 b1 b2 b3 b4 b5) = none := findIdentity_none hx
  rw [exec_pin h]
  simp only [pinRequest, addressOf_of_number ha, unknown]
  rfl

/-- Settles O23: the checks in the order of R19, then the new lease. -/
theorem pinReservesTheLowestFreeSlot : Obligations.PinReservesTheLowestFreeSlot := by
  refine ⟨fun s n m l => State.putLease_lease n l s m, fun s a b e => State.putEntry_entry a e s b,
    fun s k tag b0 b1 b2 b3 b4 b5 ad rest h hu => ⟨fun hb => ?_, fun a ha => ⟨fun n l hl hx => ?_, fun hx =>
      ⟨fun n he => ?_, fun q he => ?_, fun he hfull => ?_, fun he n hn hlow => ?_⟩⟩⟩⟩
  · rw [exec_pin h]
    simp only [pinRequest, addressOf_outside hb]
    rfl
  · have found : (s.popped rest).findIdentity (identityOf b0 b1 b2 b3 b4 b5) = some n := findIdentity_some hu hl hx
    rw [exec_pin h]
    simp only [pinRequest, addressOf_of_number ha, found]
    rfl
  · rw [exec_pin_unknown h ha hx, if_pos (by rw [he]; nofun), State.holderByte, he]
    rfl
  · rw [exec_pin_unknown h ha hx, if_pos (by rw [he]; nofun), State.holderByte, he]
    rfl
  · rw [exec_pin_unknown h ha hx, if_neg (not_not.mpr he), freeSlot_none hfull]
    rfl
  · rw [exec_pin_unknown h ha hx, if_neg (not_not.mpr he), freeSlot_some hn hlow]
    rfl

/-! ### A forced RETIRE (R21 to R24) -/

/-- The walk that may end a change leaves the Address Map. -/
theorem pollSettle_entry (s : State) (a : Address) : s.pollSettle.entry a = s.entry a := by
  have hmap : s.pollSettle.table.map = s.table.map := (State.WalksTo.pollSettle s).frame.2.2.1
  simp only [State.entry, hmap]

/-- The condition and seconds of an entry as a response carries them. -/
theorem entryData_quarantine {s : State} {a : Address} {q : Nat} (h : s.entry a = quarantineEntry q) :
    s.entryData a = if q = 0 then [0, 0, 0] else 1 :: natBytes q := by
  rw [State.entryData, h, quarantineEntry]
  split <;> rfl

/-- The entry of a lease that a forced RETIRE has freed. -/
theorem retireNow_entry (n : Slot) (l : Lease) (s : State) :
    (s.retireNow n l).entry l.address = quarantineEntry (s.forcedQuarantine l) := by
  rw [State.retireNow, pollSettle_entry, State.dropOffer_entry, State.leaveRing_entry, State.vacate_entry, if_pos rfl]

/-- The take of a forced RETIRE of a lease that is not RELEASING. -/
theorem exec_retireForced_lease {s : State} {k tag b : Byte} {rest : List ReqEntry} {n : Slot} {l : Lease}
    (h : s.Takes [k, 0x15, tag, b, 1] rest) (hn : b.toNat = n.val) (hl : s.lease n = some l)
    (hr : isReleasing (some l) = false) :
    exec .retireForced s = .next (((s.popped rest).retireNow n l).replied
      ([10, 0x15, tag, 0x00, b, l.status.code, byteOf (addressNumber l.address)] ++
        (if s.forcedQuarantine l = 0 then [0, 0, 0] else 1 :: natBytes (s.forcedQuarantine l)))) := by
  have data := entryData_quarantine (retireNow_entry n l (s.popped rest))
  have hb : slotByte n = b := byteOf_toNat hn
  rw [exec_retireForced h (by simp)]
  simp only [retireForcedRequest, slotOf_eq_some.mpr hn, State.popped_lease, hl, ne_eq, not_true_eq_false, if_false]
  split
  · next hst => simp [isReleasing, hst] at hr
  · rw [answer_eq_replied, data, hb]
    show _ = Host.Outcome.next (State.replied (_ ++ if (s.popped rest).forcedQuarantine l = 0 then _ else _) _)
    split <;> rfl

/-- Settles O24: the checks in order, then the lease freed by its state. -/
theorem forcedRetireFreesTheLease : Obligations.ForcedRetireFreesTheLease := by
  refine ⟨fun q => rfl, fun s k tag b m rest h hm => ⟨fun hbad => ?_, ?_⟩⟩
  · rw [exec_retireForced h (by simpa using hm)]
    simp only [retireForcedRequest]
    cases hb : slotOf b with
    | none => rfl
    | some n =>
      have hn := slotOf_eq_some.mp hb
      have hn64 : n.val < 64 := n.isLt
      rcases hbad with h64 | h1
      · omega
      · simp only [if_pos h1]
        rfl
  · rintro n hn rfl
    refine ⟨fun hl => ?_, fun l hl hr => ?_, fun l hl hr => ?_⟩
    · rw [exec_retireForced h (by simp)]
      simp only [retireForcedRequest, slotOf_eq_some.mpr hn, State.popped_lease, hl, ne_eq, not_true_eq_false, if_false]
      rfl
    · rw [exec_retireForced h (by simp)]
      simp only [retireForcedRequest, slotOf_eq_some.mpr hn, State.popped_lease, hl, ne_eq, not_true_eq_false, if_false]
      cases hst : l.status with
      | releasing term => rfl
      | _ => simp [isReleasing, hst] at hr
    · rw [exec_retireForced_lease h hn hl hr]
      cases hst : l.status with
      | releasing term => simp [isReleasing, hst] at hr
      | _ =>
        simp only [State.retireNow, State.forcedQuarantine, hst]
        rfl

end Sys2Proof.Machine

/-! ## The seconds strobe (1.4)

The strobe walks the addresses and then the slots one by one. Part way through, the state is told by what each slot's lease has
become and by which slots have expired or been reclaimed; each slot moves these three on for itself alone. -/
namespace Sys2Proof.Machine
set_option Elab.async false

/-! ### One lease and one address -/

/-- What a strobe makes of a lease: counted down, LOST, or reclaimed (R14, R15). -/
def strobeResult (p : Params) (l : Lease) : Option Lease :=
  match l.status with
  | .bound term miss =>
    some { l with status := if term ≤ 1 then .lost p.quarantineMin else .bound (term - 1) miss }
  | .suspect term miss =>
    some { l with status := if term ≤ 1 then .lost p.quarantineMin else .suspect (term - 1) miss }
  | .lost q => if q ≤ 1 ∧ p.autoReclaim = 1 then none else some { l with status := .lost (q - 1) }
  | _ => some l

/-- A term that runs out at this strobe (R14). -/
def Lease.expires (l : Lease) : Bool :=
  match l.status with
  | .bound term _ => decide (term ≤ 1)
  | .suspect term _ => decide (term ≤ 1)
  | _ => false

/-- A quarantine that is over at this strobe, under AUTO_RECLAIM (R15). -/
def Lease.reclaimed (p : Params) (l : Lease) : Bool :=
  match l.status with
  | .lost q => decide (q ≤ 1 ∧ p.autoReclaim = 1)
  | _ => false

/-- The pending poll when the polls of some slots are withdrawn that have not been granted (R100). -/
def withdrawn (gone : Slot → Bool) (pending : Option PendingPoll) : Option PendingPoll :=
  match pending with
  | some ⟨n, false⟩ => if gone n then none else pending
  | p => p

/-- The entry of an address when some slots' leases are reclaimed (R15). -/
def reclaimEntry (reclaimed : Slot → Bool) : AddrEntry → AddrEntry
  | .held n => if reclaimed n then .free else .held n
  | e => e

/-! ### The state part way through -/

/-- `t` is `u` but for its table, its Poll Ring, its Change Set and its cause flags. -/
def State.Beside (u t : State) : Prop :=
  ∃ (table : LeaseTable) (poll : Scheduler) (changes : Vector (BitVec 3) 64) (flags : Half),
    t = { u with table := table, poll := poll, causes := { u.causes with changes := changes, flags := flags } }

theorem State.Beside.trans {s t u : State} (h : s.Beside t) (k : t.Beside u) : s.Beside u := by
  obtain ⟨_, _, _, _, rfl⟩ := h
  obtain ⟨_, _, _, _, rfl⟩ := k
  exact ⟨_, _, _, _, rfl⟩

theorem State.Beside.params {u t : State} (h : u.Beside t) : t.params = u.params := by
  obtain ⟨_, _, _, _, rfl⟩ := h
  rfl

/-- `t` is `u` with these leases, in which these slots have expired and these have been reclaimed. -/
structure State.Strobed (leases : Slot → Option Lease) (expired reclaimed : Slot → Bool) (u t : State) : Prop where
  lease   : ∀ n, t.lease n = leases n
  entry   : ∀ a, t.entry a = reclaimEntry reclaimed (u.entry a)
  changes : ∀ n : Slot, t.causes.changes[n] =
    if expired n || reclaimed n then u.causes.changes[n] ||| 1 else u.causes.changes[n]
  flags   : t.causes.flags =
    if allSlots.any (fun n => expired n || reclaimed n) then u.causes.flags ||| 0x0004 else u.causes.flags
  poll    : t.poll = { u.poll with
    ring := u.poll.ring.filter (fun m => !expired m.slot), pending := withdrawn expired u.poll.pending }
  beside  : u.Beside t

/-- CHANGES is set from the first slot handed over on. -/
theorem any_update (gone : Slot → Bool) (n : Slot) (flags : Half) :
    (if allSlots.any (Function.update gone n true) then flags ||| 0x0004 else flags) =
      (if allSlots.any gone then flags ||| 0x0004 else flags) ||| 0x0004 := by
  have hany : allSlots.any (Function.update gone n true) = true :=
    List.any_eq_true.mpr ⟨n, List.mem_finRange n, Function.update_self n true gone⟩
  rw [hany, if_pos rfl]
  split
  · rw [BitVec.or_assoc, BitVec.or_self]
  · rfl

/-- The poll of one more slot is withdrawn. -/
theorem withdrawn_update (gone : Slot → Bool) (n : Slot) (p : Option PendingPoll) :
    withdrawn (Function.update gone n true) p =
      if withdrawn gone p = some { slot := n, inFlight := false } then none else withdrawn gone p := by
  match p with
  | none => simp [withdrawn]
  | some ⟨m, true⟩ => simp [withdrawn]
  | some ⟨m, false⟩ =>
    by_cases e : m = n
    · subst e
      cases h : gone m <;> simp [withdrawn, h]
    · cases h : gone m <;> simp [withdrawn, h, e]

/-- The members that stay when one more slot leaves the ring. -/
theorem filter_update (gone : Slot → Bool) (n : Slot) (ring : List RingMember) :
    ring.filter (fun m => !Function.update gone n true m.slot) =
      (ring.filter (fun m => !gone m.slot)).filter (fun m => m.slot ≠ n) := by
  rw [List.filter_filter]
  refine List.filter_congr fun m _ => ?_
  by_cases e : m.slot = n
  · simp [e]
  · simp [e]

/-- A slot joins the slots that have gone. -/
theorem or_update_left {expired reclaimed : Slot → Bool} (n : Slot) :
    (fun m => Function.update expired n true m || reclaimed m) =
      Function.update (fun m => expired m || reclaimed m) n true := by
  funext m
  by_cases e : m = n
  · simp [e]
  · simp [e]

theorem or_update_right {expired reclaimed : Slot → Bool} (n : Slot) :
    (fun m => expired m || Function.update reclaimed n true m) =
      Function.update (fun m => expired m || reclaimed m) n true := by
  funext m
  by_cases e : m = n
  · simp [e]
  · simp [e]

namespace State.Strobed

/-- Before any slot is taken nothing has changed. -/
theorem none (u : State) : u.Strobed u.lease (fun _ => false) (fun _ => false) u where
  lease _ := rfl
  entry a := by cases u.entry a <;> rfl
  changes _ := rfl
  flags := by simp
  poll := by
    have pending : withdrawn (fun _ => false) u.poll.pending = u.poll.pending := by
      unfold withdrawn
      split <;> rfl
    simp [pending]
  beside := ⟨_, _, _, _, rfl⟩

variable {leases : Slot → Option Lease} {expired reclaimed : Slot → Bool} {u t : State} {n : Slot}

/-- A slot's record is written. -/
theorem putLease (h : u.Strobed leases expired reclaimed t) (l : Option Lease) :
    u.Strobed (Function.update leases n l) expired reclaimed (t.putLease n l) where
  lease m := by rw [State.putLease_lease, h.lease, Function.update_apply]
  entry := h.entry
  changes := h.changes
  flags := h.flags
  poll := h.poll
  beside := h.beside.trans ⟨_, _, _, _, rfl⟩

/-- The Change Set once a slot that has not gone before is handed over. -/
theorem handOver_changes (h : u.Strobed leases expired reclaimed t) (hx : expired n = false) (hr : reclaimed n = false)
    (m : Slot) : (t.handOver n .state).causes.changes[m] =
      if Function.update (fun m => expired m || reclaimed m) n true m then u.causes.changes[m] ||| 1
      else u.causes.changes[m] := by
  rw [State.handOver_changes, h.changes]
  by_cases e : m = n
  · subst e
    simp [hx, hr, Reason.mask]
  · simp [e]

/-- A slot whose term runs out expires (R14). -/
theorem loseLease (h : u.Strobed leases expired reclaimed t) (l : Lease) (q : Nat) (hx : expired n = false)
    (hr : reclaimed n = false) :
    u.Strobed (Function.update leases n (some { l with status := .lost q })) (Function.update expired n true) reclaimed
      (t.loseLease n l q) where
  lease m := by
    rw [State.loseLease, State.leaveRing_lease, State.changeStatus_lease, h.lease, Function.update_apply]
  entry := h.entry
  changes m := by
    rw [congrFun (or_update_left n) m]
    exact h.handOver_changes hx hr m
  flags := by
    rw [or_update_left, any_update, ← h.flags]
    rfl
  poll := by
    simp only [State.loseLease, State.leaveRing, State.changeStatus_poll, h.poll, withdrawn_update, filter_update]
  beside := h.beside.trans ⟨_, _, _, _, rfl⟩

/-- A slot whose quarantine is over is reclaimed, with the address it holds (R15). -/
theorem vacate (h : u.Strobed leases expired reclaimed t) (l : Lease) (hx : expired n = false) (hr : reclaimed n = false)
    (ha : ∀ a, u.entry a = .held n ↔ a = l.address) :
    u.Strobed (Function.update leases n Option.none) expired (Function.update reclaimed n true) (t.vacate n l 0) where
  lease m := by rw [State.vacate_lease, h.lease, Function.update_apply]
  entry a := by
    rw [State.vacate_entry, h.entry]
    by_cases e : a = l.address
    · rw [if_pos e, (ha a).mpr e]
      simp [reclaimEntry, quarantineEntry]
    · rw [if_neg e]
      cases he : u.entry a with
      | held m =>
        have hm : m ≠ n := fun hmn => e ((ha a).mp (hmn ▸ he))
        simp [reclaimEntry, hm]
      | _ => rfl
  changes m := by
    rw [congrFun (or_update_right n) m]
    exact h.handOver_changes hx hr m
  flags := by
    rw [or_update_right, any_update, ← h.flags]
    rfl
  poll := h.poll
  beside := h.beside.trans ⟨_, _, _, _, rfl⟩

/-- One slot is taken: its lease is what the strobe makes of it, and it may expire or be reclaimed (R14, R15). -/
theorem strobeLease (h : u.Strobed leases expired reclaimed t) (hl : leases n = u.lease n) (hx : expired n = false)
    (hr : reclaimed n = false) (ha : ∀ l ∈ u.lease n, ∀ a, u.entry a = .held n ↔ a = l.address) :
    u.Strobed (Function.update leases n ((u.lease n).bind (strobeResult u.params)))
      (Function.update expired n ((u.lease n).any Lease.expires))
      (Function.update reclaimed n ((u.lease n).any (Lease.reclaimed u.params))) (t.strobeLease n) := by
  have keepX : Function.update expired n false = expired := by rw [← hx, Function.update_eq_self]
  have keepR : Function.update reclaimed n false = reclaimed := by rw [← hr, Function.update_eq_self]
  have keepL (l : Option Lease) (hn : u.lease n = l) : Function.update leases n l = leases := by
    rw [← hn, ← hl, Function.update_eq_self]
  have hp : t.params = u.params := h.beside.params
  unfold State.strobeLease
  rw [h.lease, hl]
  cases hn : u.lease n with
  | none => simpa [keepX, keepR, keepL _ hn] using h
  | some l =>
    cases hst : l.status with
    | bound term miss =>
      by_cases hterm : term ≤ 1
      · simpa [strobeResult, Lease.expires, Lease.reclaimed, hst, hterm, keepR, hp] using
          h.loseLease l u.params.quarantineMin hx hr
      · simpa [strobeResult, Lease.expires, Lease.reclaimed, hst, hterm, keepX, keepR] using
          h.putLease (some { l with status := .bound (term - 1) miss })
    | suspect term miss =>
      by_cases hterm : term ≤ 1
      · simpa [strobeResult, Lease.expires, Lease.reclaimed, hst, hterm, keepR, hp] using
          h.loseLease l u.params.quarantineMin hx hr
      · simpa [strobeResult, Lease.expires, Lease.reclaimed, hst, hterm, keepX, keepR] using
          h.putLease (some { l with status := .suspect (term - 1) miss })
    | lost q =>
      by_cases hq : q ≤ 1 ∧ u.params.autoReclaim = 1
      · simpa [strobeResult, Lease.expires, Lease.reclaimed, hst, hq, keepX, hp] using h.vacate l hx hr (ha l hn)
      · simpa [strobeResult, Lease.expires, Lease.reclaimed, hst, hq, keepX, keepR, hp] using
          h.putLease (some { l with status := .lost (q - 1) })
    | _ => simpa [strobeResult, Lease.expires, Lease.reclaimed, hst, keepX, keepR, keepL _ hn] using h

end State.Strobed

/-! ### The whole strobe -/

/-- The slots of a list without repetition are taken one after another, each by the state it had (R12). -/
theorem foldl_strobeLease {u : State} (ha : ∀ n, ∀ l ∈ u.lease n, ∀ a, u.entry a = .held n ↔ a = l.address)
    (ns : List Slot) (hns : ns.Nodup) {leases : Slot → Option Lease} {expired reclaimed : Slot → Bool} {t : State}
    (h : u.Strobed leases expired reclaimed t)
    (hu : ∀ n ∈ ns, leases n = u.lease n ∧ expired n = false ∧ reclaimed n = false) :
    u.Strobed (fun n => if n ∈ ns then (u.lease n).bind (strobeResult u.params) else leases n)
      (fun n => if n ∈ ns then (u.lease n).any Lease.expires else expired n)
      (fun n => if n ∈ ns then (u.lease n).any (Lease.reclaimed u.params) else reclaimed n)
      (ns.foldl State.strobeLease t) := by
  induction ns generalizing leases expired reclaimed t with
  | nil => simpa using h
  | cons n ns ih =>
    obtain ⟨hn, hns⟩ := List.nodup_cons.mp hns
    obtain ⟨hl, hx, hr⟩ := hu n List.mem_cons_self
    have step := h.strobeLease hl hx hr (ha n)
    have rest := ih hns step fun m hm => by
      have hne : m ≠ n := fun e => hn (e ▸ hm)
      simpa [hne] using hu m (List.mem_cons_of_mem n hm)
    have after {α : Type} (f g : Slot → α) :
        (fun m => if m ∈ ns then f m else Function.update g n (f n) m) = fun m => if m ∈ n :: ns then f m else g m := by
      funext m
      by_cases e : m = n
      · subst e
        simp
      · simp [e]
    rw [after, after, after] at rest
    exact rest

/-- The addresses of a list without repetition are taken one after another (R16). -/
theorem foldl_strobeAddress (as : List Address) (has : as.Nodup) (s : State) :
    ∃ map : Vector AddrEntry 126, as.foldl State.strobeAddress s = { s with table := { s.table with map := map } } ∧
      ∀ a : Address, map[a] = if a ∈ as then strobeEntry (s.entry a) else s.entry a := by
  induction as generalizing s with
  | nil => exact ⟨s.table.map, rfl, fun a => by simp [State.entry]⟩
  | cons b as ih =>
    obtain ⟨hb, has⟩ := List.nodup_cons.mp has
    obtain ⟨map, hfold, hmap⟩ := ih has (s.strobeAddress b)
    refine ⟨map, hfold, fun a => ?_⟩
    rw [hmap, State.strobeAddress, State.putEntry_entry]
    by_cases e : a = b
    · subst e
      simp [hb]
    · simp [e]

/-- A strobe finds and leaves an address HELD by the same slot. -/
theorem strobeEntry_eq_held {e : AddrEntry} {n : Slot} : strobeEntry e = .held n ↔ e = .held n := by
  rw [← AddrEntry.holder_eq_some, ← AddrEntry.holder_eq_some, State.EditsTo.strobeEntry_holder]

/-- The seconds strobe: every entry counts down, every lease is taken once, and one walk step follows (R12). -/
theorem takeStrobe_eq {s : State} (hm : s.MapMatches) : ∃ (map : Vector AddrEntry 126) (t : State),
    (∀ a : Address, map[a] = strobeEntry (s.entry a)) ∧
    State.Strobed (fun n => (s.lease n).bind (strobeResult s.params)) (fun n => (s.lease n).any Lease.expires)
      (fun n => (s.lease n).any (Lease.reclaimed s.params)) { s with table := { s.table with map := map } } t ∧
    s.takeStrobe = t.pollSettle := by
  obtain ⟨map, hfold, hmap⟩ := foldl_strobeAddress allAddresses (List.nodup_finRange _) s
  have hmap (a : Address) : map[a] = strobeEntry (s.entry a) :=
    (hmap a).trans (if_pos (List.mem_finRange a))
  have ha (n : Slot) (l : Lease) (hl : l ∈ s.lease n) (a : Address) : map[a] = .held n ↔ a = l.address := by
    rw [hmap, strobeEntry_eq_held, ← AddrEntry.holder_eq_some, ← State.mapMatches_iff.mp hm n a, Option.mem_def.mp hl]
    simp [eq_comm]
  have all (n : Slot) : n ∈ allSlots := List.mem_finRange n
  refine ⟨map, _, hmap, ?_, by rw [State.takeStrobe, hfold]⟩
  have strobed := foldl_strobeLease (u := { s with table := { s.table with map := map } }) ha allSlots
    (List.nodup_finRange _) (.none _) fun _ _ => ⟨rfl, rfl, rfl⟩
  simp only [all, if_true] at strobed
  exact strobed

/-- Settles O36: the strobe walks the addresses and the slots, and leaves each as its table gives. -/
theorem secondsStrobeCountsDown : Obligations.SecondsStrobeCountsDown := by
  refine fun s hr => ⟨fun hs => ?_, fun hs hm => ?_⟩
  · have notDue : s.strobeDue = false := decide_eq_false (Nat.not_le.mpr hs)
    rw [exec_secondsStrobe hr, State.secondsEvent, notDue]
    rfl
  · have due : s.strobeDue = true := decide_eq_true hs
    obtain ⟨map, t, hmap, h, ht⟩ := takeStrobe_eq (s := { s with timing := { s.timing with seconds := 0 } }) hm
    refine ⟨t.table.slots, t.table.map, t.causes.changes, h.lease, fun a => ?_, h.changes, ?_⟩
    · refine (h.entry a).trans ?_
      show reclaimEntry _ map[a] = _
      rw [hmap]
      show reclaimEntry _ (strobeEntry (s.entry a)) = _
      cases s.entry a with
      | quarantined q =>
        simp only [strobeEntry]
        split <;> rfl
      | _ => rfl
    · rw [exec_secondsStrobe hr, State.secondsEvent, due, if_pos rfl, ht]
      obtain ⟨table, poll, changes, flags, rfl⟩ := h.beside
      obtain rfl := h.poll
      obtain rfl := h.flags
      rfl

end Sys2Proof.Machine

/-! ## Characters, frames and the trunk's time base (2.1, 2.2, 8.2) -/
namespace Sys2Proof.Machine
set_option Elab.async false

/-! ### Parity (R31) -/

/-- Folding exclusive-or over bits tells whether their number of 1 bits is odd. -/
theorem foldl_xor_eq_odd {α : Type} (bit : α → Bool) (xs : List α) (start : Bool) :
    xs.foldl (fun p x => p ^^ bit x) start = decide (((xs.map bit).countP (fun b => b) + start.toNat) % 2 = 1) := by
  induction xs generalizing start with
  | nil => cases start <;> rfl
  | cons x xs ih =>
    rw [List.foldl_cons, ih, List.map_cons, List.countP_cons]
    cases start <;> cases bit x <;> simp; omega

/-- The parity bit is 1 exactly when the data and flag bits hold an even number of 1 bits. -/
theorem oddParity_eq (d : Byte) (f : Bool) : oddParity d f =
    decide ((((List.range 8).map (fun i => d.getLsbD i)).countP (fun b => b) + f.toNat) % 2 = 0) := by
  unfold oddParity
  rw [foldl_xor_eq_odd, ← decide_not, decide_eq_decide]
  exact Nat.mod_two_ne_one

/-- A character's number of 1 bits: its data bits, its flag bit and its parity bit. -/
theorem countP_character (bits : List Bool) (f p : Bool) :
    (bits ++ [f, p]).countP (fun b => b) = bits.countP (fun b => b) + f.toNat + p.toNat := by
  cases f <;> cases p <;> simp

/-- With the parity bit the number of 1 bits is odd. -/
theorem sentCharacter_parity (d : Byte) (f : Bool) :
    ((sentCharacter d f).drop 1).dropLast.countP (fun b => b) % 2 = 1 := by
  have hbits : ((sentCharacter d f).drop 1).dropLast =
      (List.range 8).map (fun i => d.getLsbD i) ++ [f, oddParity d f] := rfl
  rw [hbits, countP_character, oddParity_eq]
  generalize ((List.range 8).map (fun i => d.getLsbD i)).countP (fun b => b) + f.toNat = ones
  rcases Nat.mod_two_eq_zero_or_one ones with h | h <;> simp [h]; omega

/-- A received character is in parity error exactly when its number of 1 bits is even (R33). -/
theorem receivedCharacter_parityError (d : Byte) (f p stop : Bool) :
    (receivedCharacter d f p stop).parityError = true ↔
      ((List.range 8).map (fun i => d.getLsbD i) ++ [f, p]).countP (fun b => b) % 2 = 0 := by
  rw [countP_character]
  show (p != oddParity d f) = true ↔ _
  rw [oddParity_eq]
  generalize ((List.range 8).map (fun i => d.getLsbD i)).countP (fun b => b) + f.toNat = ones
  rcases Nat.mod_two_eq_zero_or_one ones with h | h <;> cases p <;> simp [h] <;> omega

/-- The data bits of a character follow its start bit, least significant first (R31). -/
theorem sentCharacter_data (d : Byte) (f : Bool) {i : Nat} (hi : i < 8) :
    (sentCharacter d f)[i + 1]? = some (d.getLsbD i) := by
  rw [sentCharacter, List.getElem?_cons_succ, List.getElem?_append_left (by simpa using hi)]
  simp [hi]

/-! ### The frame (2.2) -/

/-- The check byte brings the sum of the data bytes to 0 (R34). -/
theorem byteSum_check (body : List Byte) : byteSum (body ++ [0 - byteSum body]) = 0 := by
  rw [byteSum, List.foldl_append]
  show byteSum body + (0 - byteSum body) = 0
  rw [zero_sub, add_neg_cancel]

/-- A frame: address, kind and length, payload, and the check byte. -/
theorem buildFrame_layout (a : TrunkAddress) (kind : Nat) (payload : List Byte) :
    ∃ check : Byte, buildFrame a kind payload =
      byteOf a.number :: byteOf (16 * kind + payload.length) :: payload ++ [check] ∧
      (buildFrame a kind payload).foldl (· + ·) 0 = 0 :=
  ⟨_, by rw [buildFrame, Nat.mul_comm kind 16], byteSum_check _⟩

/-! ### The trunk outputs (R32, R50) -/

/-- Outside SEND TXD is 1. -/
theorem txd_idle {s : State} (h : s.engine.state ≠ .send) : s.txd = true := by
  unfold State.txd
  split
  · exact absurd ‹_› h
  · rfl

/-- In SEND TXD carries the bit of the frame whose bit time runs. -/
theorem txd_send {s : State} {t : Txn} (h : s.engine.state = .send) (ht : s.engine.txn = some t) :
    s.txd = (frameBits t.frame).getD (s.engine.clock / s.params.bitTime) true := by simp [State.txd, h, ht]

/-- Settles O41: the layouts are the definitions; parity and the check byte need their lemmas. -/
theorem charactersAndFramesFollowTheTables : Obligations.CharactersAndFramesFollowTheTables := by
  refine ⟨⟨rfl, rfl, fun _ => ⟨rfl, rfl⟩⟩, fun s => ⟨beq_iff_eq, txd_idle, fun h _ ht => txd_send h ht⟩,
    fun _ _ => rfl, fun d f => ⟨rfl, rfl, fun _ hi => sentCharacter_data d f hi, rfl, rfl, sentCharacter_parity d f⟩,
    fun d f p stop => ⟨_, rfl, receivedCharacter_parityError d f p stop⟩,
    fun a kind payload => ⟨?_, buildFrame_layout a kind payload⟩,
    fun _ _ _ _ _ _ => ⟨rfl, rfl, rfl, rfl, rfl, rfl⟩, fun p => ⟨fun h => ?_, fun h => ?_, rfl, rfl, rfl, rfl, rfl⟩⟩
  · simp [buildFrame]
  · rw [Params.bitTime, h]
  · rw [Params.bitTime, h]

end Sys2Proof.Machine

/-! ## The judgement of a reply (2.3) -/
namespace Sys2Proof.Machine
set_option Elab.async false

/-! ### The end of reception (R40) -/

/-- A whole frame is three characters and its payload. -/
theorem receptionComplete_fits {a k : RxChar} {more : List RxChar} (h : k.data.toNat % 16 ≤ 8) :
    receptionComplete (a :: k :: more) = true ↔ (a :: k :: more).length = 3 + k.data.toNat % 16 := by
  simp only [receptionComplete, lengthNibble, if_pos h, beq_iff_eq]
  omega

/-- With a length nibble beyond 8 reception ends with character 10. -/
theorem receptionComplete_long {a k : RxChar} {more : List RxChar} (h : 9 ≤ k.data.toNat % 16) :
    receptionComplete (a :: k :: more) = true ↔ (a :: k :: more).length = 11 := by
  simp only [receptionComplete, lengthNibble, if_neg (show ¬k.data.toNat % 16 ≤ 8 by omega), beq_iff_eq]

/-! ### The checks of Table 2-7, one after another -/

/-- Some character carries a parity error. -/
theorem any_parityError {chars : List RxChar} :
    chars.any (fun c => c.parityError) = true ↔ ∃ c ∈ chars, c.parityError = true := List.any_eq_true

/-- No character carries a parity error. -/
theorem any_parityError_false {chars : List RxChar} :
    chars.any (fun c => c.parityError) = false ↔ ∀ c ∈ chars, c.parityError = false := by simp

/-- No character carries a framing error. -/
theorem any_framingError_false {chars : List RxChar} :
    chars.any (fun c => c.framingError) = false ↔ ∀ c ∈ chars, c.framingError = false := by simp

/-- Check 1. -/
theorem judgeFrame_parity {chars : List RxChar} (short : Bool) (e : Expected)
    (h : chars.any (fun c => c.parityError) = true) : judgeFrame chars short e = some .parity := by
  simp only [judgeFrame, h, if_true]

/-- Check 2. -/
theorem judgeFrame_framing {chars : List RxChar} (short : Bool) (e : Expected)
    (hp : chars.any (fun c => c.parityError) = false) (h : chars.any (fun c => c.framingError) = true) :
    judgeFrame chars short e = some .framing := by
  simp only [judgeFrame, hp, h, if_true, if_false, Bool.false_eq_true]

/-- Checks 3 to 7, on characters without errors. -/
theorem judgeFrame_clean {chars : List RxChar} (short : Bool) (e : Expected)
    (h : ∀ c ∈ chars, c.parityError = false ∧ c.framingError = false) : judgeFrame chars short e =
      if badLength chars then some .length
      else if short then some .short
      else if byteSum (chars.map (fun c => c.data)) ≠ 0 then some .check
      else if wrongSource chars e.source then some .wrongSource
      else if wrongKind chars e then some .wrongKind
      else none := by
  have hp := any_parityError_false.mpr fun c hc => (h c hc).1
  have hf := any_framingError_false.mpr fun c hc => (h c hc).2
  simp only [judgeFrame, hp, hf, if_false, Bool.false_eq_true]

/-- The reason is PARITY exactly when check 1 fails. -/
theorem judgeFrame_eq_parity {chars : List RxChar} {short : Bool} {e : Expected} :
    judgeFrame chars short e = some .parity ↔ ∃ c ∈ chars, c.parityError = true := by
  refine ⟨fun h => ?_, fun h => judgeFrame_parity short e (any_parityError.mpr h)⟩
  by_contra hn
  have hp := Bool.eq_false_iff.mpr fun hp => hn (any_parityError.mp hp)
  revert h
  simp only [judgeFrame, hp, if_false, Bool.false_eq_true]
  repeat' split
  all_goals nofun

/-- The reason is FRAMING exactly when check 1 passes and check 2 fails. -/
theorem judgeFrame_eq_framing {chars : List RxChar} {short : Bool} {e : Expected} :
    judgeFrame chars short e = some .framing ↔
      (∀ c ∈ chars, c.parityError = false) ∧ ∃ c ∈ chars, c.framingError = true := by
  refine ⟨fun h => ?_, fun ⟨hp, hf⟩ => judgeFrame_framing short e (any_parityError_false.mpr hp) (List.any_eq_true.mpr hf)⟩
  cases hp : chars.any (fun c => c.parityError) with
  | true => rw [judgeFrame_parity short e hp] at h; nomatch h
  | false =>
    refine ⟨any_parityError_false.mp hp, ?_⟩
    by_contra hn
    have hf := Bool.eq_false_iff.mpr fun hf => hn (List.any_eq_true.mp hf)
    revert h
    simp only [judgeFrame, hp, hf, if_false, Bool.false_eq_true]
    repeat' split
    all_goals nofun

/-- Check 3 fails with a length nibble of 9 to 15. -/
theorem badLength_iff {a k : RxChar} {more : List RxChar} :
    badLength (a :: k :: more) = true ↔ 9 ≤ k.data.toNat % 16 := decide_eq_true_iff

/-- Check 6 fails without flag 1, direction 1 and the expected source. -/
theorem wrongSource_iff {a : RxChar} {more : List RxChar} {source : TrunkAddress} :
    wrongSource (a :: more) source = true ↔ ¬(a.flag = true ∧ a.data.toNat = 128 + source.number) := by
  simp [wrongSource, imp_iff_not_or]

/-- Check 7 fails without the expected kind, a length it admits, and the identity that is expected, if one is. -/
theorem wrongKind_iff {a k : RxChar} {more : List RxChar} {e : Expected} :
    wrongKind (a :: k :: more) e = true ↔ ¬(k.data.toNat / 16 = e.kind.code ∧ e.kind.admits (k.data.toNat % 16) = true ∧
      ∀ x ∈ e.identity, payloadIdentity (more.dropLast.map (fun c => c.data)) = x) := by
  cases hx : e.identity <;> simp [wrongKind, hx, framePayload, imp_iff_not_or, or_assoc]

/-- The sum of a frame's data bytes. -/
theorem byteSum_data (chars : List RxChar) :
    byteSum (chars.map (fun c => c.data)) = chars.foldl (fun n c => n + c.data) 0 := List.foldl_map

/-- Settles O42: the checks of Table 2-7 in order, each as its own condition. -/
theorem judgementGivesTheFirstFailedCheck : Obligations.JudgementGivesTheFirstFailedCheck := by
  refine ⟨⟨rfl, fun _ => rfl⟩, fun a k more => ⟨receptionComplete_fits, receptionComplete_long⟩, rfl, fun len => rfl,
    fun a k c payload => ?_, fun _ _ _ _ _ _ _ _ _ => ⟨rfl, rfl⟩, fun a e => ⟨fun hp => ?_, fun hp hf => ?_, fun hp hf => ?_⟩,
    fun a k more short e => ⟨judgeFrame_eq_parity, judgeFrame_eq_framing, fun clean => ?_⟩⟩
  · simp [framePayload]
  · exact judgeFrame_parity true e (by simpa using hp)
  · exact judgeFrame_framing true e (by simpa using hp) (by simpa using hf)
  · exact (judgeFrame_clean true e (by simp [hp, hf])).trans rfl
  · rw [judgeFrame_clean short e clean]
    refine ⟨fun hlen => if_pos (badLength_iff.mpr hlen), fun hlen hshort => ?_, fun hlen hshort => ?_⟩
    all_goals have fits : ¬badLength (a :: k :: more) = true := fun h => by have := badLength_iff.mp h; omega
    · rw [if_neg fits, if_pos hshort]
    · rw [if_neg fits, if_neg (by simp [hshort]), byteSum_data]
      intro sum source payload kind
      refine ⟨fun hsum => if_pos hsum, fun hsum hsource => ?_, fun hsum hsource hkind => ?_, fun hsum hsource hkind => ?_⟩
      · rw [if_neg (not_not.mpr hsum), if_pos (wrongSource_iff.mpr hsource)]
      · rw [if_neg (not_not.mpr hsum), if_neg (fun h => wrongSource_iff.mp h hsource), if_pos (wrongKind_iff.mpr hkind)]
      · rw [if_neg (not_not.mpr hsum), if_neg (fun h => wrongSource_iff.mp h hsource),
          if_neg (fun h => wrongKind_iff.mp h hkind)]

end Sys2Proof.Machine

/-! ## The end of a solicit listen (2.4, 4.3) -/
namespace Sys2Proof.Machine
set_option Elab.async false

/-! ### The result of a sub-slot (R47) -/

/-- The result of a sub-slot by its count of frames: none, one that is a JOIN, or otherwise a collision. -/
theorem SubSlot.result_eq (b : SubSlot) : b.result =
    match b.frames, b.failed, b.join with
    | 0, _, _ => .empty
    | 1, false, some j => .join j
    | _, _, _ => .collided := by
  obtain ⟨frames, failed, join⟩ := b
  match frames, failed, join with
  | 0, _, _ => rfl
  | 1, false, some _ => rfl
  | 1, false, none => rfl
  | 1, true, _ => simp [SubSlot.result]
  | _ + 2, _, _ => simp [SubSlot.result]

/-! ### The evaluation of the results (R77) -/

/-- In CLOSED nothing is evaluated. -/
theorem evaluateSolicit_closed {s : State} (h : s.enrol.mode = .closed) (results : List SubSlotResult) :
    s.evaluateSolicit results = s := by simp [State.evaluateSolicit, h]

/-- Outside CLOSED the results are taken in order. -/
theorem evaluateSolicit_open {s : State} (h : s.enrol.mode ≠ .closed) (results : List SubSlotResult) :
    s.evaluateSolicit results = s.takeResults [] results := by
  unfold State.evaluateSolicit
  cases hm : s.enrol.mode with
  | closed => exact absurd hm h
  | listed => rfl
  | opened => rfl

/-- SOLICIT_LISTEN_END in a listen. -/
theorem listenTimeout_listen {s : State} (hs : s.engine.state = .listen) (hl : s.inListen = true) :
    s.listenTimeout = (s.passTo s.params.listenTime).endListen s.params.listenTime := if_pos ⟨hs, hl⟩

/-- The transaction in flight is a SOLICIT. -/
theorem inListen_solicit {s : State} {t : Txn} (ht : s.engine.txn = some t) (hk : t.kind = .solicit) :
    s.inListen = true := by simp [State.inListen, ht, hk]

/-- Settles O46: the listen's end changes the Engine, and the results are then taken one after another. -/
theorem solicitResultsAreEvaluatedInOrder : Obligations.SolicitResultsAreEvaluatedInOrder := by
  refine fun s => ⟨fun hr hs t ht hk => ?_, fun at_ => ?_, fun _ => ?_, fun _ _ => ⟨rfl, rfl⟩, fun seen rest j => ?_⟩
  · rw [exec_solicitListenEnd hr, listenTimeout_listen hs (inListen_solicit ht hk)]
    rfl
  · intro result results u ended
    have hresults : s.engine.reception.results = results := List.map_congr_left fun b _ => b.result_eq
    have hended : s.endListen at_ = ended.evaluateSolicit results := by
      rw [State.endListen, hresults]
      rfl
    exact ⟨fun hm => hended.trans (evaluateSolicit_closed (s := ended) hm results),
      fun hm => hended.trans (evaluateSolicit_open (s := ended) hm results)⟩
  · rfl
  · simp [State.takeResults]

end Sys2Proof.Machine

/-! ## What an attempt's end leaves at the Engine

The owners of an outcome touch neither the pins nor the Engine, so an attempt or a listen that has ended leaves the Engine in
GUARD, where nothing is heard. -/
namespace Sys2Proof.Machine
set_option Elab.async false

/-- `t` has the pins and the Engine of `s`. -/
def State.LeavesTrunk (s t : State) : Prop := t.pins = s.pins ∧ t.engine = s.engine

namespace State.LeavesTrunk

/-- A change of other blocks alone. -/
theorem same {s t : State} (h : t.pins = s.pins ∧ t.engine = s.engine := by exact ⟨rfl, rfl⟩) : s.LeavesTrunk t := h

theorem refl (s : State) : s.LeavesTrunk s := same

theorem trans {s t u : State} (h : s.LeavesTrunk t) (k : t.LeavesTrunk u) : s.LeavesTrunk u :=
  ⟨k.1.trans h.1, k.2.trans h.2⟩

/-- Other blocks may change after. -/
theorem andSame {s t u : State} (h : s.LeavesTrunk t)
    (k : u.pins = t.pins ∧ u.engine = t.engine := by exact ⟨rfl, rfl⟩) : s.LeavesTrunk u := h.trans k

/-- Other blocks may change before. -/
theorem afterSame {s t u : State} (h : t.LeavesTrunk u)
    (k : t.pins = s.pins ∧ t.engine = s.engine := by exact ⟨rfl, rfl⟩) : s.LeavesTrunk u := trans k h

/-- A cause flag may be set after. -/
theorem andRaise {s t : State} {c : Cause} (h : s.LeavesTrunk t) : s.LeavesTrunk (t.raise c) := h.andSame

/-- One of two changes, by a condition. -/
theorem cond {s t u : State} {c : Prop} [Decidable c] (h : s.LeavesTrunk t) (k : s.LeavesTrunk u) :
    s.LeavesTrunk (if c then t else u) := by
  split
  · exact h
  · exact k

/-- A walk of the Poll Ring. -/
theorem ofWalk {s t : State} (h : s.WalksTo t) : s.LeavesTrunk t := by
  obtain ⟨hpins, -, -, -, -, -, -, hengine, -⟩ := h.frame
  exact ⟨hpins, hengine⟩

theorem pollSettle (s : State) : s.LeavesTrunk s.pollSettle := ofWalk (.pollSettle s)

theorem joinRing (n : Slot) (s : State) : s.LeavesTrunk (s.joinRing n) := afterSame (ofWalk (.joinRing n s))

theorem abandonOffer (n : Slot) (q : Nat) (s : State) : s.LeavesTrunk (s.abandonOffer n q) := by
  unfold State.abandonOffer
  split
  · exact same
  · split <;> exact same

theorem countAttempt (n : Slot) (x : Identity) (a : TrunkAddress) (bad : Bool) (s : State) :
    s.LeavesTrunk (s.countAttempt n x a bad) := by
  unfold State.countAttempt
  split
  · exact refl s
  · exact cond (cond (andRaise (cond same same)) (cond same same)) same

/-! ### The owners of an outcome (Table 3-5) -/

theorem storeStatus (n : Slot) (l : Lease) (w : Half) (s : State) : s.LeavesTrunk (s.storeStatus n l w) := cond same same

theorem renew (n : Slot) (l : Lease) (wasSuspect : Bool) (w : Half) (s : State) :
    s.LeavesTrunk (s.renew n l wasSuspect w) := cond (andSame (storeStatus n _ w s)) (storeStatus n _ w s)

theorem countMiss (n : Slot) (l : Lease) (term miss : Nat) (wasSuspect : Bool) (s : State) :
    s.LeavesTrunk (s.countMiss n l term miss wasSuspect) := cond same (cond same (cond same same))

theorem pollEffect (t : Txn) (o : AttemptOutcome) (s : State) : s.LeavesTrunk (s.pollEffect t o) := by
  unfold State.pollEffect
  split
  · split
    · exact refl s
    · split
      · exact renew _ _ _ _ s
      · exact renew _ _ _ _ s
      · exact countMiss _ _ _ _ _ s
      · exact countMiss _ _ _ _ _ s
      · exact countMiss _ _ _ _ _ s
      · exact countMiss _ _ _ _ _ s
      · exact refl s
  · exact refl s

theorem pollTaken (n : Slot) (s : State) : s.LeavesTrunk (s.pollTaken n) := by
  unfold State.pollTaken
  split
  · exact cond same same
  · exact same

theorem pollDone (t : Txn) (o : AttemptOutcome) (s : State) : s.LeavesTrunk (s.pollDone t o) := by
  unfold State.pollDone
  split
  · exact ((pollEffect t o s).trans (pollTaken _ _)).trans (pollSettle _)
  · exact refl s

theorem offerDone (t : Txn) (o : AttemptOutcome) (s : State) : s.LeavesTrunk (s.offerDone t o) := by
  unfold State.offerDone
  split
  · split
    · exact refl s
    · cases o with
      | good => exact afterSame (joinRing _ _)
      | noReply => exact abandonOffer _ _ s
      | garbled r => exact abandonOffer _ _ s
      | lineFault => exact refl s
  · exact refl s

theorem endReleasing (n : Slot) (full : Bool) (s : State) : s.LeavesTrunk (s.endReleasing n full) := by
  unfold State.endReleasing
  split
  · split <;> exact same
  · exact same

theorem completeRelease (t : Txn) (o : AttemptOutcome) (n : Slot) (tag : Byte) (a : Address) (s : State) :
    s.LeavesTrunk (s.completeRelease t o n tag a) := andSame (cond (endReleasing n _ s) (refl s))

theorem releaseDone (t : Txn) (o : AttemptOutcome) (s : State) : s.LeavesTrunk (s.releaseDone t o) := by
  unfold State.releaseDone
  split
  · exact refl s
  · split
    · exact afterSame (completeRelease t o _ _ _ _)
    all_goals exact same

theorem relayDone (t : Txn) (o : AttemptOutcome) (s : State) : s.LeavesTrunk (s.relayDone t o) := by
  unfold State.relayDone
  split <;> exact same

/-! ### The Census Unit's part (6.1, 6.4) -/

theorem walkOrWait (s : State) : s.LeavesTrunk s.walkOrWait := by
  unfold State.walkOrWait
  split
  · exact same
  · split <;> exact same

theorem censusWalk (s : State) : s.LeavesTrunk s.censusWalk := cond (afterSame (walkOrWait _)) (walkOrWait s)

theorem probeTaken (s : State) : s.LeavesTrunk s.probeTaken := by
  unfold State.probeTaken
  dsimp only
  split
  · exact cond (afterSame (censusWalk _)) same
  all_goals exact afterSame (censusWalk _)

theorem offerRelease (a : Address) (r : ReleaseReason) (s : State) : s.LeavesTrunk (s.offerRelease a r) :=
  cond same (cond same same)

theorem conflictAt (a : Address) (s : State) : s.LeavesTrunk (s.conflictAt a) := andSame (offerRelease a .conflict s)

theorem rebind (n : Slot) (l : Lease) (q : Nat) (a : Address) (cls : Byte) (units : Nat) (s : State) :
    s.LeavesTrunk (s.rebind n l q a cls units) := by
  have moved : s.LeavesTrunk
      (if l.address = a then s else (s.putEntry l.address (quarantineEntry q)).putEntry a (.held n)) := cond same same
  exact (moved.andSame (u := ((State.changeStatus n (rebound l a cls) (.bound (4 * units) 0) _).countAdopted))).trans
    (joinRing n _)

theorem adopt (x : Identity) (a : Address) (cls : Byte) (units : Nat) (s : State) :
    s.LeavesTrunk (s.adopt x a cls units) := by
  unfold State.adopt
  split
  · exact afterSame (joinRing _ _)
  · exact same

theorem takeAnswer (a : Address) (x : Identity) (cls : Byte) (units : Nat) (s : State) :
    s.LeavesTrunk (s.takeAnswer a x cls units) := by
  unfold State.takeAnswer
  split
  · split
    · exact refl s
    · refine cond ?_ ?_
      · split
        · exact rebind _ _ _ _ _ _ s
        · exact refl s
      · split
        · exact offerRelease _ _ s
        · exact cond (conflictAt a s) (rebind _ _ _ _ _ _ s)
        · exact conflictAt a s
  · exact cond (conflictAt a s) (adopt x a cls units s)

theorem judgeProbe (a : Address) (o : AttemptOutcome) (payload : List Byte) (s : State) :
    s.LeavesTrunk (s.judgeProbe a o payload) := by
  cases o with
  | good => exact cond (refl s) (takeAnswer _ _ _ _ s)
  | noReply => exact refl s
  | garbled r => exact andSame (offerRelease a .clash s)
  | lineFault => exact refl s

theorem probeDone (t : Txn) (o : AttemptOutcome) (s : State) : s.LeavesTrunk (s.probeDone t o) := by
  unfold State.probeDone
  split
  · have judged := judgeProbe ‹Address› o (t.reply.getD []) s
    dsimp only
    split
    · exact cond (judged.trans (probeTaken _)) judged.andSame
    · exact judged.andSame
  · exact refl s

/-- The outcome of a transaction at its owner. -/
theorem txnDone (t : Txn) (o : AttemptOutcome) (s : State) : s.LeavesTrunk (s.txnDone t o) := by
  unfold State.txnDone
  split
  · exact pollDone t o s
  · exact refl s
  · exact offerDone t o s
  · exact releaseDone t o s
  · exact probeDone t o s
  · exact relayDone t o s

theorem countTxnAttempt (t : Txn) (o : AttemptOutcome) (s : State) : s.LeavesTrunk (s.countTxnAttempt t o) := by
  unfold State.countTxnAttempt
  split
  · exact countAttempt _ _ _ _ s
  · exact countAttempt _ _ _ _ s
  · exact refl s

theorem countFailedOffer (t : Txn) (s : State) : s.LeavesTrunk (s.countFailedOffer t) := by
  unfold State.countFailedOffer
  split <;> exact same

/-! ### The results of a solicit (4.3) -/

theorem newcomer (j : Join) (s : State) : s.LeavesTrunk (s.newcomer j) := by
  unfold State.newcomer
  refine cond same ?_
  split
  · exact same
  · split <;> exact same

theorem takeJoin (j : Join) (s : State) : s.LeavesTrunk (s.takeJoin j) := by
  unfold State.takeJoin
  split
  · exact newcomer j s
  · split
    · exact refl s
    · split
      · exact refl s
      · exact same
      · exact same
      · exact afterSame (pollSettle _)
      · exact afterSame (pollSettle _)
      · exact refl s

theorem takeResults (seen : List Identity) (results : List SubSlotResult) (s : State) :
    s.LeavesTrunk (s.takeResults seen results) := by
  induction results generalizing seen s with
  | nil => exact refl s
  | cons r rest ih =>
    cases r with
    | empty => exact ih seen s
    | collided => exact ih seen s
    | join j => exact cond (ih seen s) ((takeJoin j s).trans (ih _ _))

theorem evaluateSolicit (results : List SubSlotResult) (s : State) : s.LeavesTrunk (s.evaluateSolicit results) := by
  unfold State.evaluateSolicit
  split
  · exact refl s
  all_goals exact takeResults [] results s

end State.LeavesTrunk

/-! ### The Engine in GUARD -/

/-- `t` has the pins of `s`, and its Engine is in GUARD. -/
def State.GuardsAfter (s t : State) : Prop := t.pins = s.pins ∧ t.engine.state = .guarding

/-- What the owners do after it does not move the Engine from GUARD. -/
theorem State.LeavesTrunk.guards {s t u : State} (h : t.LeavesTrunk u) (hp : t.pins = s.pins)
    (hs : t.engine.state = .guarding) : s.GuardsAfter u := ⟨h.1.trans hp, (congrArg Engine.state h.2).trans hs⟩

/-- The end of an attempt of a transaction in flight. -/
theorem endAttempt_guards {s : State} {t : Txn} (ht : s.engine.txn = some t) (ended : Nat) (o : AttemptOutcome)
    (payload : Option (List Byte)) : s.GuardsAfter (s.endAttempt ended o payload) := by
  unfold State.endAttempt
  rw [ht]
  dsimp only
  have counted (r : Txn) : (s.countTxnAttempt r o).pins = s.pins := (State.LeavesTrunk.countTxnAttempt r o s).1
  split
  · exact (State.LeavesTrunk.txnDone _ o _).guards (counted _) rfl
  · exact (State.LeavesTrunk.countFailedOffer _ _).guards (counted _) rfl

/-- The end of a listen. -/
theorem endListen_guards (ended : Nat) (s : State) : s.GuardsAfter (s.endListen ended) :=
  (State.LeavesTrunk.evaluateSolicit _ _).guards rfl rfl

end Sys2Proof.Machine

/-! ## Reception of a reply (2.1, 2.3) -/
namespace Sys2Proof.Machine
set_option Elab.async false

/-! ### The ends of the waits, each in the one state that it ends -/

theorem idleTimeout_elsewhere {s : State} (h : s.engine.state ≠ .receive) : s.idleTimeout = s := if_neg fun hc => h hc.1

theorem windowTimeout_elsewhere {s : State} (h : s.engine.state ≠ .listen) : s.windowTimeout = s := if_neg fun hc => h hc.1

theorem listenTimeout_elsewhere {s : State} (h : s.engine.state ≠ .listen) : s.listenTimeout = s := if_neg fun hc => h hc.1

/-- The idle that ends a reply (R40 item 2). -/
theorem idleTimeout_reply {s : State} (hs : s.engine.state = .receive) (hc : s.engine.reception.charBegan = none)
    (hl : s.inListen = false) : s.idleTimeout =
      (s.passTo (s.engine.reception.idleFrom + s.params.charTime)).endReply true
        (s.engine.reception.idleFrom + s.params.charTime) := by simp [State.idleTimeout, hs, hc, hl]

/-- The window that no reply began in (R39). -/
theorem windowTimeout_listen {s : State} (hs : s.engine.state = .listen) (hl : s.inListen = false) : s.windowTimeout =
    (s.passTo s.params.windowTime).endAttempt s.params.windowTime .noReply none := if_pos ⟨hs, hl⟩

/-- The transaction in flight is no SOLICIT. -/
theorem inListen_other {s : State} {t : Txn} (ht : s.engine.txn = some t) (hk : t.kind ≠ .solicit) :
    s.inListen = false := by simp [State.inListen, ht, hk]

/-- A reply that is expected ends GOOD with its payload, or GARBLED, as it is judged (R41, R42). -/
theorem endReply_judged {s : State} {t : Txn} {e : Expected} (ht : s.engine.txn = some t) (he : t.expected = some e)
    (short : Bool) (ended : Nat) : s.endReply short ended =
      match judgeFrame s.engine.reception.chars short e with
      | some g => s.endAttempt ended (.garbled g) none
      | none => s.endAttempt ended .good (some (framePayload s.engine.reception.chars)) := by
  simp only [State.endReply, ht, he]
  cases judgeFrame s.engine.reception.chars short e <;> rfl

/-- The end of an expected reply leaves the Engine in GUARD. -/
theorem endReply_guards {s : State} {t : Txn} {e : Expected} (ht : s.engine.txn = some t) (he : t.expected = some e)
    (short : Bool) (ended : Nat) : s.GuardsAfter (s.endReply short ended) := by
  rw [endReply_judged ht he]
  split
  · exact endAttempt_guards ht _ _ _
  · exact endAttempt_guards ht _ _ _

/-! ### A character begins (R33) -/

/-- The Engine hears nothing outside LISTEN and RECEIVE. -/
theorem listening_eq_false {s : State} : s.listening = false ↔ s.engine.state ≠ .listen ∧ s.engine.state ≠ .receive := by
  simp [State.listening]

theorem listening_of_listen {s : State} (h : s.engine.state = .listen) : s.listening = true := by simp [State.listening, h]

theorem listening_of_receive {s : State} (h : s.engine.state = .receive) : s.listening = true := by simp [State.listening, h]

/-- In GUARD nothing is heard. -/
theorem State.GuardsAfter.deaf {s t : State} (h : s.GuardsAfter t) : t.listening = false := by
  obtain ⟨-, hs⟩ := h
  simp [State.listening, hs]

/-- Outside RECEIVE only the reply window or the listen can have ended. -/
theorem catchUp_wait {s : State} (h : s.engine.state ≠ .receive) (t : Nat) : s.catchUp t =
    if s.inListen then (if s.params.listenTime ≤ t then s.listenTimeout else s)
    else (if s.params.windowTime < t then s.windowTimeout else s) := by
  simp only [State.catchUp, idleTimeout_elsewhere h, ite_self]

/-- Outside LISTEN and RECEIVE no wait runs. -/
theorem catchUp_deaf {s : State} (h : s.listening = false) (t : Nat) : s.catchUp t = s := by
  obtain ⟨hlisten, hreceive⟩ := listening_eq_false.mp h
  simp only [catchUp_wait hreceive, listenTimeout_elsewhere hlisten, windowTimeout_elsewhere hlisten, ite_self]

/-- In RECEIVE the frame goes on within a character time after the last stop bit. -/
theorem catchUp_receive {s : State} (hs : s.engine.state = .receive) {t : Nat}
    (h : t ≤ s.engine.reception.idleFrom + s.params.charTime) : s.catchUp t = s := by
  have hlisten : s.engine.state ≠ .listen := by simp [hs]
  simp only [State.catchUp, if_neg (Nat.not_lt.mpr h), listenTimeout_elsewhere hlisten, windowTimeout_elsewhere hlisten,
    ite_self]

/-- More than a character time after the last stop bit the idle is taken first. -/
theorem catchUp_late {s : State} {t : Nat} (h : s.engine.reception.idleFrom + s.params.charTime < t)
    (hs : s.idleTimeout.engine.state ≠ .receive) : s.catchUp t = s.idleTimeout.catchUp t := by
  rw [catchUp_wait hs]
  simp only [State.catchUp, if_pos h]

theorem beginCharacter_deaf {s : State} (h : s.listening = false) (t : Nat) : s.beginCharacter t = s := by
  obtain ⟨hlisten, hreceive⟩ := listening_eq_false.mp h
  unfold State.beginCharacter
  split
  · exact absurd ‹_› hlisten
  · exact absurd ‹_› hreceive
  · rfl

/-- The first character of a reply or a frame. -/
theorem beginCharacter_listen {s : State} (hs : s.engine.state = .listen) (t : Nat) : s.beginCharacter t =
    { s with engine := { s.engine with
      state := .receive
      clock := max s.engine.clock (t + s.params.judgeTime)
      reception := { s.engine.reception with charBegan := some t, chars := [], frameBegan := t } } } := by
  simp only [State.beginCharacter, hs]

/-- A next character. -/
theorem beginCharacter_receive {s : State} (hs : s.engine.state = .receive) (t : Nat) : s.beginCharacter t =
    { s with engine := { s.engine with
      clock := max s.engine.clock (t + s.params.judgeTime)
      reception := { s.engine.reception with charBegan := some t } } } := by
  simp only [State.beginCharacter, hs]

theorem startCharacter_deaf {s : State} (h : s.listening = false) (given : Nat) : s.startCharacter given = s := by
  simp [State.startCharacter, h]

/-- A fall that reads 1 at the middle of its start bit is noise. -/
theorem exec_startBit_noise {s : State} (h : s.pins.rstLow = false) (began : Nat) :
    exec (.startBit began true) s = .next s := by
  simp [exec, execStartBit, whenRunning_running h]

/-- A fall in LISTEN or between two characters counts from the reading of the last stop bit at the earliest, and comes after
the waits that had ended by then (log entry 11). -/
theorem startCharacter_heard {s : State} (hs : s.listening = true) (hc : s.engine.reception.charBegan = none) (given : Nat) :
    s.startCharacter given = (s.catchUp (max given s.fallFrom)).beginCharacter (max given s.fallFrom) := if_pos ⟨hs, hc⟩

/-- A fall that finds its wait ended is not heard. -/
theorem startCharacter_ended {s : State} (hs : s.listening = true) (hc : s.engine.reception.charBegan = none) {given : Nat}
    (h : (s.catchUp (max given s.fallFrom)).listening = false) : s.startCharacter given = s.catchUp (max given s.fallFrom) :=
  (startCharacter_heard hs hc given).trans (beginCharacter_deaf h _)

/-- After a character began, one is in reception or the Engine hears nothing. -/
theorem beginCharacter_cases (s : State) (t : Nat) :
    (s.beginCharacter t).engine.reception.charBegan = some t ∨ (s.beginCharacter t).listening = false := by
  cases hs : s.engine.state with
  | listen => exact .inl (by rw [beginCharacter_listen hs])
  | receive => exact .inl (by rw [beginCharacter_receive hs])
  | _ => exact .inr (by simp [State.beginCharacter, State.listening, hs])

/-! ### Reception leaves the pins alone -/

theorem endAttempt_pins (ended : Nat) (o : AttemptOutcome) (payload : Option (List Byte)) (s : State) :
    (s.endAttempt ended o payload).pins = s.pins := by
  cases ht : s.engine.txn with
  | none => simp [State.endAttempt, ht]
  | some t => exact (endAttempt_guards ht ended o payload).1

theorem endReply_pins (short : Bool) (ended : Nat) (s : State) : (s.endReply short ended).pins = s.pins := by
  unfold State.endReply
  split
  · rfl
  · split
    · rfl
    · split
      · exact endAttempt_pins _ _ _ s
      · exact endAttempt_pins _ _ _ s

theorem endListenFrame_pins (short : Bool) (now : Nat) (s : State) : (s.endListenFrame short now).pins = s.pins := by
  unfold State.endListenFrame
  dsimp only
  split
  · exact (endListen_guards now _).1
  · rfl

theorem idleTimeout_pins (s : State) : s.idleTimeout.pins = s.pins := by
  unfold State.idleTimeout
  split
  · dsimp only
    split
    · exact endListenFrame_pins _ _ _
    · exact endReply_pins _ _ _
  · rfl

theorem windowTimeout_pins (s : State) : s.windowTimeout.pins = s.pins := by
  unfold State.windowTimeout
  split
  · exact endAttempt_pins _ _ _ _
  · rfl

theorem listenTimeout_pins (s : State) : s.listenTimeout.pins = s.pins := by
  unfold State.listenTimeout
  split
  · exact (endListen_guards _ _).1
  · rfl

theorem catchUp_pins (t : Nat) (s : State) : (s.catchUp t).pins = s.pins := by
  have idle : (if s.engine.reception.idleFrom + s.params.charTime < t then s.idleTimeout else s).pins = s.pins := by
    split
    · exact idleTimeout_pins s
    · rfl
  have wait (u : State) : (if u.inListen then (if u.params.listenTime ≤ t then u.listenTimeout else u)
      else (if u.params.windowTime < t then u.windowTimeout else u)).pins = u.pins := by
    split
    · split
      · exact listenTimeout_pins u
      · rfl
    · split
      · exact windowTimeout_pins u
      · rfl
  exact (wait _).trans idle

theorem beginCharacter_pins (t : Nat) (s : State) : (s.beginCharacter t).pins = s.pins := by
  unfold State.beginCharacter
  split <;> rfl

theorem startCharacter_pins (given : Nat) (s : State) : (s.startCharacter given).pins = s.pins := by
  unfold State.startCharacter
  split
  · exact (beginCharacter_pins _ _).trans (catchUp_pins _ s)
  · rfl

/-! ### A character is whole (R33, R40) -/

theorem receiveCharacter_deaf {s : State} (h : s.listening = false) (c : RxChar) : s.receiveCharacter c = s := by
  obtain ⟨-, hreceive⟩ := listening_eq_false.mp h
  unfold State.receiveCharacter
  rw [startCharacter_deaf h, ite_self]
  dsimp only
  split
  · exact absurd ‹_› hreceive
  · rfl

/-- A character that no START_BIT announced is heard after one that counts as its own (log entry 7). -/
theorem receiveCharacter_unannounced {s : State} (hs : s.listening = true) (hc : s.engine.reception.charBegan = none)
    (c : RxChar) : s.receiveCharacter c = (s.startCharacter s.presumedBegin).receiveCharacter c := by
  rw [startCharacter_heard hs hc]
  rcases beginCharacter_cases (s.catchUp (max s.presumedBegin s.fallFrom)) (max s.presumedBegin s.fallFrom) with h | h
  · simp [State.receiveCharacter, hc, startCharacter_heard hs hc, h]
  · rw [receiveCharacter_deaf h]
    obtain ⟨-, hreceive⟩ := listening_eq_false.mp h
    unfold State.receiveCharacter
    rw [if_pos hc, startCharacter_heard hs hc]
    dsimp only
    split
    · exact absurd ‹_› hreceive
    · rfl

/-- A character of a reply. -/
theorem receiveCharacter_reply {s : State} {began : Nat} (hs : s.engine.state = .receive)
    (hc : s.engine.reception.charBegan = some began) (hl : s.inListen = false) (c : RxChar) :
    s.receiveCharacter c = (s.endCharacter began).gatherReply c began := by
  have hl' : (s.endCharacter began).inListen = false := hl
  simp [State.receiveCharacter, hs, hc, hl]

/-- A character with flag 0, or the first, begins no new frame after another. -/
theorem goesOn {c : RxChar} {chars : List RxChar} (h : c.flag = false ∨ chars = []) : ¬(c.flag = true ∧ chars ≠ []) := by
  rintro ⟨hf, hn⟩
  rcases h with h | h
  · simp [hf] at h
  · exact hn h

/-- With flag 1 after the first character the reply ends short, as that character begins. -/
theorem gatherReply_short {s : State} {c : RxChar} (hf : c.flag = true) (hn : s.engine.reception.chars ≠ []) (t : Nat) :
    s.gatherReply c t = s.endReply true t := if_pos ⟨hf, hn⟩

/-- Otherwise it is gathered with its error bit, and ends a whole frame with its stop bit. -/
theorem gatherReply_next {s : State} {c : RxChar} {x : Txn} (h : c.flag = false ∨ s.engine.reception.chars = [])
    (hx : s.engine.txn = some x) (t : Nat) : s.gatherReply c t =
      let r := s.engine.reception
      let u := (s.setReception { r with chars := r.chars ++ [c] }).setTxn
        (some { x with errorMap := markError x.errorMap r.chars.length c })
      if receptionComplete (r.chars ++ [c]) then u.endReply false r.idleFrom else u := by
  unfold State.gatherReply
  dsimp only
  rw [if_neg (goesOn h)]
  simp only [State.setReception, hx]
  rfl

/-! ### A start bit against the wait it comes in (R33, R39, R40) -/

section Reply
variable {s : State} {t : Txn} {e : Expected}

/-- A start bit within the reply window. -/
theorem startCharacter_withinWindow (hs : s.engine.state = .listen) (hl : s.inListen = false)
    (hc : s.engine.reception.charBegan = none) {given : Nat} (h : max given s.fallFrom ≤ s.params.windowTime) :
    s.startCharacter given = s.beginCharacter (max given s.fallFrom) := by
  have hreceive : s.engine.state ≠ .receive := by simp [hs]
  rw [startCharacter_heard (listening_of_listen hs) hc, catchUp_wait hreceive, hl, if_neg (Nat.not_lt.mpr h)]
  rfl

/-- A start bit after the reply window. -/
theorem startCharacter_afterWindow (hs : s.engine.state = .listen) (ht : s.engine.txn = some t) (hl : s.inListen = false)
    (hc : s.engine.reception.charBegan = none) {given : Nat} (h : s.params.windowTime < max given s.fallFrom) :
    s.startCharacter given = s.windowTimeout := by
  have hreceive : s.engine.state ≠ .receive := by simp [hs]
  have ended : s.catchUp (max given s.fallFrom) = s.windowTimeout := by
    rw [catchUp_wait hreceive, hl, if_pos h]
    rfl
  have guards : s.GuardsAfter s.windowTimeout := by
    rw [windowTimeout_listen hs hl]
    exact endAttempt_guards (s := s.passTo _) ht _ _ _
  rw [startCharacter_ended (listening_of_listen hs) hc (ended ▸ guards.deaf), ended]

/-- A start bit within a character time after the last stop bit, in a reply or in a listen frame. -/
theorem startCharacter_withinFrame (hs : s.engine.state = .receive) (hc : s.engine.reception.charBegan = none) {given : Nat}
    (h : max given s.fallFrom ≤ s.engine.reception.idleFrom + s.params.charTime) :
    s.startCharacter given = s.beginCharacter (max given s.fallFrom) := by
  rw [startCharacter_heard (listening_of_receive hs) hc, catchUp_receive hs h]

/-- A start bit later than that, in a reply. -/
theorem startCharacter_afterReply (hs : s.engine.state = .receive) (ht : s.engine.txn = some t) (he : t.expected = some e)
    (hl : s.inListen = false) (hc : s.engine.reception.charBegan = none) {given : Nat}
    (h : s.engine.reception.idleFrom + s.params.charTime < max given s.fallFrom) :
    s.startCharacter given = s.idleTimeout := by
  have deaf : s.idleTimeout.listening = false := by
    rw [idleTimeout_reply hs hc hl]
    exact (endReply_guards (s := s.passTo _) ht he _ _).deaf
  have ended : s.catchUp (max given s.fallFrom) = s.idleTimeout :=
    (catchUp_late h (listening_eq_false.mp deaf).2).trans (catchUp_deaf deaf _)
  rw [startCharacter_ended (listening_of_receive hs) hc (ended ▸ deaf), ended]

end Reply

/-- Settles O44: each event by the state in which the Engine hears it. -/
theorem repliesAreGatheredCharacterByCharacter : Obligations.RepliesAreGatheredCharacterByCharacter := by
  refine fun s hr => ⟨exec_startBit_noise hr, fun hlisten hreceive => ?_, fun hs hc d f p stop u hu => ?_,
    fun t e ht hk he => ?_⟩
  · have deaf := listening_eq_false.mpr ⟨hlisten, hreceive⟩
    exact ⟨fun began => (exec_startBit hr).trans (by rw [startCharacter_deaf deaf]),
      fun d f p stop => (exec_characterReceived hr).trans (by rw [receiveCharacter_deaf deaf])⟩
  · have hears : s.listening = true := hs.elim listening_of_listen listening_of_receive
    rw [exec_startBit hr] at hu
    obtain rfl := Host.Outcome.next.inj hu
    rw [exec_characterReceived hr, exec_characterReceived ((congrArg Pins.rstLow (startCharacter_pins _ s)).trans hr),
      receiveCharacter_unannounced hears hc]
    rfl
  · have hl := inListen_other ht hk
    refine ⟨fun hc given => ⟨fun hs h => ?_, fun hs h => ?_, fun hs h => ?_, fun hs h => ?_⟩,
      fun began hs hc d f p stop => ?_⟩
    · rw [exec_startBit hr, startCharacter_withinWindow hs hl hc h, beginCharacter_listen hs]
      rfl
    · rw [exec_startBit hr, exec_replyWindowTimeout hr, startCharacter_afterWindow hs ht hl hc h]
    · rw [exec_startBit hr, startCharacter_withinFrame hs hc h, beginCharacter_receive hs]
      rfl
    · rw [exec_startBit hr, exec_replyIdleTimeout hr, startCharacter_afterReply hs ht he hl hc h]
    · rw [exec_characterReceived hr, receiveCharacter_reply hs hc hl]
      intro c stopEnd heard map
      have whole (hf : f = false ∨ s.engine.reception.chars = []) :
          (s.endCharacter began).gatherReply c began =
            if receptionComplete (s.engine.reception.chars ++ [c]) then
              (heard (s.engine.reception.chars ++ [c]) map).endReply false stopEnd
            else heard (s.engine.reception.chars ++ [c]) map :=
        gatherReply_next (s := s.endCharacter began) (c := c) hf ht began
      refine ⟨fun hf hn => ?_, fun hf h => ?_, fun hf h => ?_⟩
      · have same : s.endCharacter began = heard s.engine.reception.chars t.errorMap := by
          simp only [State.endCharacter, ht]
          rfl
        rw [gatherReply_short (s := s.endCharacter began) hf hn, same]
        exact congrArg Host.Outcome.next (endReply_judged rfl he true began)
      · rw [whole hf, if_neg (by simp [h])]
      · rw [whole hf, if_pos h]
        exact congrArg Host.Outcome.next (endReply_judged (t := { t with errorMap := map }) rfl he false stopEnd)

end Sys2Proof.Machine

/-! ## The solicit listen (2.4) -/
namespace Sys2Proof.Machine
set_option Elab.async false

/-! ### Frames and their sub-slots (R45, R46) -/

/-- A time falls in the sub-slot that has begun and not ended by then. -/
theorem subSlot_eq {p : Params} {k : Fin 4} {t : Nat} (h : k.val * (14 * p.charTime) ≤ t)
    (h' : t < (k.val + 1) * (14 * p.charTime)) : p.subSlot t = k := by
  have hk : t / (14 * p.charTime) = k.val := Nat.div_eq_of_lt_le h h'
  unfold Params.subSlot
  simp only [Config.subSlotCharacters, hk, k.isLt, dif_pos]

/-- A frame is kept for the sub-slot in which it began. -/
theorem keepFrame_at {s : State} {k : Fin 4} (h : s.params.subSlot s.engine.reception.frameBegan = k) (short : Bool) :
    s.keepFrame short = s.setReception { s.engine.reception with
      chars := []
      subSlots := s.engine.reception.subSlots.set k
        (s.engine.reception.subSlots[k].add s.engine.reception.chars short) } := by
  subst h
  rfl

/-- A frame that ends before 56 character times leaves the listen going on. -/
theorem endListenFrame_before {s : State} {now : Nat} (h : now < s.params.listenTime) (short : Bool) :
    s.endListenFrame short now =
      { s.keepFrame short with engine := { (s.keepFrame short).engine with state := .listen } } := if_neg (Nat.not_le.mpr h)

/-- A frame that ends at or after 56 character times ends the listen with it. -/
theorem endListenFrame_after {s : State} {now : Nat} (h : s.params.listenTime ≤ now) (short : Bool) :
    s.endListenFrame short now = (s.keepFrame short).endListen now := if_pos h

/-- The idle that ends a frame of the listen (R40 item 2). -/
theorem idleTimeout_frame {s : State} (hs : s.engine.state = .receive) (hc : s.engine.reception.charBegan = none)
    (hl : s.inListen = true) : s.idleTimeout =
      (s.passTo (s.engine.reception.idleFrom + s.params.charTime)).endListenFrame true
        (s.engine.reception.idleFrom + s.params.charTime) := by simp [State.idleTimeout, hs, hc, hl]

/-! ### A character begins (R45, log entry 11) -/

/-- A start bit before 56 character times. -/
theorem startCharacter_withinListen {s : State} (hs : s.engine.state = .listen) (hl : s.inListen = true)
    (hc : s.engine.reception.charBegan = none) {given : Nat} (h : max given s.fallFrom < s.params.listenTime) :
    s.startCharacter given = s.beginCharacter (max given s.fallFrom) := by
  have hreceive : s.engine.state ≠ .receive := by simp [hs]
  rw [startCharacter_heard (listening_of_listen hs) hc, catchUp_wait hreceive, if_pos hl, if_neg (Nat.not_le.mpr h)]

/-- A start bit at or after 56 character times. -/
theorem startCharacter_afterListen {s : State} (hs : s.engine.state = .listen) (hl : s.inListen = true)
    (hc : s.engine.reception.charBegan = none) {given : Nat} (h : s.params.listenTime ≤ max given s.fallFrom) :
    s.startCharacter given = s.listenTimeout := by
  have hreceive : s.engine.state ≠ .receive := by simp [hs]
  have ended : s.catchUp (max given s.fallFrom) = s.listenTimeout := by
    rw [catchUp_wait hreceive, if_pos hl, if_pos h]
  have deaf : s.listenTimeout.listening = false := by
    rw [listenTimeout_listen hs hl]
    exact (endListen_guards _ _).deaf
  rw [startCharacter_ended (listening_of_listen hs) hc (ended ▸ deaf), ended]

/-- After the idle that ends a frame the listen has ended, or it goes on with no character in reception. -/
theorem idleTimeout_frame_cases {s : State} (hs : s.engine.state = .receive) (hc : s.engine.reception.charBegan = none)
    (hl : s.inListen = true) : s.idleTimeout.listening = false ∨
      (s.idleTimeout.engine.state = .listen ∧ s.idleTimeout.engine.reception.charBegan = none ∧
        s.idleTimeout.fallFrom = s.fallFrom) := by
  rw [idleTimeout_frame hs hc hl]
  rcases Nat.lt_or_ge (s.engine.reception.idleFrom + s.params.charTime) s.params.listenTime with h | h
  · rw [endListenFrame_before (s := s.passTo _) h]
    exact .inr ⟨rfl, hc, rfl⟩
  · rw [endListenFrame_after (s := s.passTo _) h]
    exact .inl (endListen_guards _ _).deaf

/-- A start bit later than a character time after the last stop bit finds the frame ended, and is heard after that. -/
theorem startCharacter_afterFrame {s : State} (hs : s.engine.state = .receive) (hl : s.inListen = true)
    (hc : s.engine.reception.charBegan = none) {given : Nat}
    (h : s.engine.reception.idleFrom + s.params.charTime < max given s.fallFrom) :
    s.startCharacter given = s.idleTimeout.startCharacter given := by
  rw [startCharacter_heard (listening_of_receive hs) hc]
  rcases idleTimeout_frame_cases hs hc hl with deaf | ⟨hlisten, hnone, hfrom⟩
  · rw [catchUp_late h (listening_eq_false.mp deaf).2, catchUp_deaf deaf, beginCharacter_deaf deaf, startCharacter_deaf deaf]
  · rw [catchUp_late h (by simp [hlisten]), startCharacter_heard (listening_of_listen hlisten) hnone, hfrom]

/-! ### A character is whole (R46) -/

/-- A character of a frame of the listen. -/
theorem receiveCharacter_frame {s : State} {began : Nat} (hs : s.engine.state = .receive)
    (hc : s.engine.reception.charBegan = some began) (hl : s.inListen = true) (c : RxChar) :
    s.receiveCharacter c = (s.endCharacter began).gatherListen c began := by
  simp [State.receiveCharacter, hs, hc, hl]

/-- With flag 1 after the first character the frame ends short, and before 56 character times a new one begins. -/
theorem gatherListen_newFrame {s : State} {c : RxChar} {t : Nat} (hf : c.flag = true)
    (hn : s.engine.reception.chars ≠ []) (h : t < s.params.listenTime) : s.gatherListen c t =
      (s.keepFrame true).setReception { (s.keepFrame true).engine.reception with chars := [c], frameBegan := t } :=
  (if_pos ⟨hf, hn⟩).trans (if_neg (Nat.not_le.mpr h))

/-- At or after them the listen ends with the frame. -/
theorem gatherListen_listenEnd {s : State} {c : RxChar} {t : Nat} (hf : c.flag = true)
    (hn : s.engine.reception.chars ≠ []) (h : s.params.listenTime ≤ t) :
    s.gatherListen c t = (s.keepFrame true).endListen t := (if_pos ⟨hf, hn⟩).trans (if_pos h)

/-- Otherwise it is gathered, and ends a whole frame with its stop bit. -/
theorem gatherListen_next {s : State} {c : RxChar} (h : c.flag = false ∨ s.engine.reception.chars = []) (t : Nat) :
    s.gatherListen c t =
      let r := s.engine.reception
      let u := s.setReception { r with chars := r.chars ++ [c] }
      if receptionComplete (r.chars ++ [c]) then u.endListenFrame false r.idleFrom else u := if_neg (goesOn h)

/-- Settles O45: each event in LISTEN and in RECEIVE, with the frame's sub-slot known. -/
theorem solicitListenKeepsFramesBySubSlot : Obligations.SolicitListenKeepsFramesBySubSlot := by
  intro s t hr ht hk
  have hl := inListen_solicit ht hk
  intro r slotTime kept
  refine ⟨fun hc given => ⟨fun hs h => ?_, fun hs h => ?_, fun hs h => ?_, fun hs h u hu => ?_⟩,
    fun hs k hfrom hto => ?_⟩
  · rw [exec_startBit hr, startCharacter_withinListen hs hl hc h, beginCharacter_listen hs]
    rfl
  · rw [exec_startBit hr, exec_solicitListenEnd hr, startCharacter_afterListen hs hl hc h]
  · rw [exec_startBit hr, startCharacter_withinFrame hs hc h, beginCharacter_receive hs]
    rfl
  · rw [exec_replyIdleTimeout hr] at hu
    obtain rfl := Host.Outcome.next.inj hu
    rw [exec_startBit hr, exec_startBit ((congrArg Pins.rstLow (idleTimeout_pins s)).trans hr),
      startCharacter_afterFrame hs hl hc h]
  · have hslot : s.params.subSlot r.frameBegan = k := subSlot_eq hfrom hto
    refine ⟨⟨fun hc h => ?_, fun hc h => ?_⟩, fun began hc d f p stop => ?_⟩
    · rw [exec_replyIdleTimeout hr, idleTimeout_frame hs hc hl, endListenFrame_before (s := s.passTo _) h,
        keepFrame_at (s := s.passTo _) hslot]
      rfl
    · rw [exec_replyIdleTimeout hr, idleTimeout_frame hs hc hl, endListenFrame_after (s := s.passTo _) h,
        keepFrame_at (s := s.passTo _) hslot, ← hs]
      rfl
    · rw [exec_characterReceived hr, receiveCharacter_frame hs hc hl]
      intro c stopEnd heard
      have waiting : s.endCharacter began = heard .receive r.chars r.frameBegan r.subSlots := by
        simp only [heard, ← hs]
        rfl
      have keeps (frame : List RxChar) (short : Bool) :
          (heard .receive frame r.frameBegan r.subSlots).keepFrame short =
            heard .receive [] r.frameBegan (kept frame short k) :=
        keepFrame_at (s := heard .receive frame r.frameBegan r.subSlots) hslot short
      have gathered (hf : f = false ∨ r.chars = []) :
          (heard .receive r.chars r.frameBegan r.subSlots).gatherListen c began =
            if receptionComplete (r.chars ++ [c]) then
              (heard .receive (r.chars ++ [c]) r.frameBegan r.subSlots).endListenFrame false stopEnd
            else heard .receive (r.chars ++ [c]) r.frameBegan r.subSlots :=
        gatherListen_next (s := heard .receive r.chars r.frameBegan r.subSlots) (c := c) hf began
      rw [waiting]
      refine ⟨fun hf hn h => ?_, fun hf hn h => ?_, fun hf h => ?_, fun hf h hend => ?_, fun hf h hend => ?_⟩
      · rw [gatherListen_newFrame (s := heard .receive r.chars _ _) hf hn h, keeps]
        rfl
      · rw [gatherListen_listenEnd (s := heard .receive r.chars _ _) hf hn h, keeps]
      · rw [gathered hf, if_neg (by simp [h])]
      · rw [gathered hf, if_pos h, endListenFrame_before (s := heard .receive _ _ _) hend, keeps]
      · rw [gathered hf, if_pos h, endListenFrame_after (s := heard .receive _ _ _) hend, keeps]

end Sys2Proof.Machine

/-! ## The states of the Engine, the scheduler and the census (3.1, 5.2, 6.1)

One relation says what the operations that leave the Engine where it is do to the poll and the probe that wait; what moves the
Engine is told state by state. -/
namespace Sys2Proof.Machine
set_option Elab.async false

/-! ### The three units, block by block -/

/-- A pending poll stands exactly while a round runs, and the scheduler is OFF exactly in poll mode OFF. -/
def Scheduler.Sound (p : Scheduler) : Prop :=
  (p.state = .round ↔ p.pending.isSome = true) ∧ (p.mode = .off ↔ p.state = .off)

/-- Part way through a change a round may stand without a pending poll, until the walk step that ends the change (R105). -/
def Scheduler.Settling (p : Scheduler) : Prop :=
  (p.pending.isSome = true → p.state = .round) ∧ (p.mode = .off ↔ p.state = .off)

/-- A probe stands exactly in RUNNING, and a step waits only there and only in STEPPED. -/
def Census.Sound (c : Census) : Prop :=
  (c.state = .running ↔ c.pending.isSome = true) ∧ (c.stepPending = true → c.state = .running ∧ c.mode = .stepped)

theorem Scheduler.Sound.settling {p : Scheduler} (h : p.Sound) : p.Settling := ⟨h.1.mpr, h.2⟩

/-- Outside a round no poll is pending. -/
theorem Scheduler.Sound.pending_none {p : Scheduler} (h : p.Sound) (hs : p.state ≠ .round) : p.pending = none := by
  cases hp : p.pending with
  | none => rfl
  | some q => exact absurd (h.1.mpr (by rw [hp]; rfl)) hs

/-- Outside RUNNING no probe is pending. -/
theorem Census.Sound.pending_none {c : Census} (h : c.Sound) (hs : c.state ≠ .running) : c.pending = none := by
  cases hp : c.pending with
  | none => rfl
  | some q => exact absurd (h.1.mpr (by rw [hp]; rfl)) hs

/-- Outside RUNNING, and outside STEPPED, no step waits. -/
theorem Census.Sound.no_step {c : Census} (h : c.Sound) (hs : c.state ≠ .running ∨ c.mode ≠ .stepped) :
    c.stepPending = false := by
  cases hp : c.stepPending with
  | false => rfl
  | true => exact absurd (h.2 hp) (by tauto)

/-! ### The walk of the Poll Ring (R105, R107) -/

/-- A visit names a poll or leaves the pending poll as it was, and writes neither the state nor the mode. -/
theorem visit_poll (ms : List RingMember) (s : State) :
    (s.visit ms).1.poll.state = s.poll.state ∧ (s.visit ms).1.poll.mode = s.poll.mode ∧
      (if (s.visit ms).2 then (s.visit ms).1.poll.pending.isSome = true
        else (s.visit ms).1.poll.pending = s.poll.pending) := by
  induction ms generalizing s with
  | nil => exact ⟨rfl, rfl, rfl⟩
  | cons m ms ih =>
    unfold State.visit
    split
    · exact ih s
    · split
      · exact ih _
      · split
        · exact ⟨rfl, rfl, rfl⟩
        · exact ih _

/-- A walk step of a running round ends with a poll named, or with the round ended. -/
theorem walk_sound (fuel : Nat) {s : State} (hs : s.poll.state = .round) (hp : s.poll.pending = none)
    (hm : s.poll.mode ≠ .off) : (s.walk fuel).poll.Sound := by
  induction fuel generalizing s with
  | zero =>
    have hv := visit_poll s.poll.ring s
    unfold State.walk
    split <;> rename_i t e <;> rw [e] at hv <;> obtain ⟨hstate, hmode, hpending⟩ := hv
    · exact named hs hm hstate hmode hpending
    · exact waits hp hm hmode hpending
  | succ fuel ih =>
    have hv := visit_poll s.poll.ring s
    unfold State.walk
    split <;> rename_i t e <;> rw [e] at hv <;> obtain ⟨hstate, hmode, hpending⟩ := hv
    · exact named hs hm hstate hmode hpending
    · split
      · exact ih rfl (hpending.trans hp) (hmode ▸ hm)
      · exact waits hp hm hmode hpending
where
  named {s t : State} (hs : s.poll.state = .round) (hm : s.poll.mode ≠ .off) (hstate : t.poll.state = s.poll.state)
      (hmode : t.poll.mode = s.poll.mode) (hpending : t.poll.pending.isSome = true) : t.poll.Sound :=
    ⟨iff_of_true (hstate.trans hs) hpending, iff_of_false (hmode ▸ hm) (by simp [hstate, hs])⟩
  waits {s t : State} (hp : s.poll.pending = none) (hm : s.poll.mode ≠ .off)
      (hmode : t.poll.mode = s.poll.mode) (hpending : t.poll.pending = s.poll.pending) :
      (t.countRound.setScheduler .wait).poll.Sound :=
    ⟨iff_of_false nofun (by rw [State.setScheduler_pollPending]; exact (hpending.trans hp).symm ▸ Bool.false_ne_true),
      iff_of_false (hmode ▸ hm) nofun⟩

/-- The beginning of a round leaves the scheduler sound (R104). -/
theorem beginRound_sound {s : State} (hp : s.poll.pending = none) (hm : s.poll.mode ≠ .off) : s.beginRound.poll.Sound :=
  walk_sound _ (s := s.clearMarks.setScheduler .round) rfl hp hm

/-! ### The walk of the census (R129, R132) -/

/-- With no probe and no step waiting, a walk leaves the census sound. -/
theorem walkOrWait_sound {s : State} (hp : s.census.pending = none) (hs : s.census.stepPending = false) :
    s.walkOrWait.census.Sound := by
  have waits (st : CensusState) (hst : st ≠ .running) : (s.endPass.setCensus st).census.Sound :=
    ⟨iff_of_false hst (by simp [State.setCensus, State.endPass, hp]), by simp [State.setCensus, State.endPass, hs]⟩
  unfold State.walkOrWait
  split
  · exact ⟨iff_of_true rfl rfl, by simp [State.nameProbe, hs]⟩
  · split
    · exact waits _ nofun
    · exact waits _ nofun
    · exact waits _ nofun
    · exact waits _ nofun

theorem censusWalk_sound {s : State} (hp : s.census.pending = none) (hs : s.census.stepPending = false) :
    s.censusWalk.census.Sound := by
  unfold State.censusWalk
  split
  · exact walkOrWait_sound (s := s.endPass) hp hs
  · exact walkOrWait_sound hp hs

/-! ### Operations that leave the Engine where it is -/

/-- `t` has the Engine's state and transaction of `s`; its scheduler has `Q` when that of `s` has `P`, and its census is sound
when that of `s` is. -/
structure State.Keeps (P Q : Scheduler → Prop) (s t : State) : Prop where
  state  : t.engine.state = s.engine.state
  txn    : t.engine.txn = s.engine.txn
  poll   : P s.poll → Q t.poll
  census : s.census.Sound → t.census.Sound

/-- The same with a sound scheduler before and after. -/
abbrev State.KeepsSound (s t : State) : Prop := s.Keeps Scheduler.Sound Scheduler.Sound t

/-- The same part way through a change of the scheduler. -/
abbrev State.KeepsSettling (s t : State) : Prop := s.Keeps Scheduler.Settling Scheduler.Settling t

namespace State.Keeps

variable {P Q R : Scheduler → Prop}

/-- A change of other blocks, or of other fields of the Engine. -/
theorem same {s t : State} (h : s.Keeps P P t := by exact ⟨rfl, rfl, id, id⟩) : s.Keeps P P t := h

theorem refl (s : State) : s.Keeps P P s := same

theorem trans {s t u : State} (h : s.Keeps P Q t) (k : t.Keeps Q R u) : s.Keeps P R u :=
  ⟨k.state.trans h.state, k.txn.trans h.txn, k.poll ∘ h.poll, k.census ∘ h.census⟩

/-- Other blocks may change after. -/
theorem andSame {s t u : State} (h : s.Keeps P Q t) (k : t.Keeps Q Q u := by exact ⟨rfl, rfl, id, id⟩) :
    s.Keeps P Q u := h.trans k

/-- Other blocks may change before. -/
theorem afterSame {s t u : State} (h : t.Keeps P Q u) (k : s.Keeps P P t := by exact ⟨rfl, rfl, id, id⟩) :
    s.Keeps P Q u := k.trans h

/-- A cause flag may be set after. -/
theorem andRaise {s t : State} {c : Cause} (h : s.Keeps P Q t) : s.Keeps P Q (t.raise c) := h.andSame

/-- A response may be written after. -/
theorem andAnswer {s t : State} {q : Request} {tag : Byte} {r : Result} {data : List Byte} (h : s.Keeps P Q t) :
    s.Keeps P Q (t.answer q tag r data) := h.andSame

/-- One of two changes, by a condition. -/
theorem cond {s t u : State} {c : Prop} [Decidable c] (h : c → s.Keeps P Q t) (k : ¬c → s.Keeps P Q u) :
    s.Keeps P Q (if c then t else u) := by
  split
  · exact h ‹_›
  · exact k ‹_›

/-- A sound scheduler is sound enough to begin a change of it. -/
theorem opens {s t : State} (h : s.Keeps Scheduler.Settling Q t) : s.Keeps Scheduler.Sound Q t :=
  ⟨h.state, h.txn, fun hp => h.poll hp.settling, h.census⟩

theorem foldl {α : Type} {f : State → α → State} (h : ∀ (s : State) (a : α), s.Keeps P P (f s a)) (xs : List α)
    (s : State) : s.Keeps P P (xs.foldl f s) := by
  induction xs generalizing s with
  | nil => exact refl s
  | cons x xs ih => exact (h s x).trans (ih _)

/-! ### The scheduler -/

/-- A walk touches neither the Engine nor the census. -/
theorem ofWalk {s t : State} (h : s.WalksTo t) (hp : P s.poll → Q t.poll) : s.Keeps P Q t := by
  obtain ⟨-, -, -, -, hcensus, -, -, hengine, -⟩ := h.frame
  exact ⟨congrArg Engine.state hengine, congrArg Engine.txn hengine, hp, hcensus ▸ id⟩

/-- The walk step that ends a change makes the scheduler sound again (R105). -/
theorem pollSettle (s : State) : s.Keeps Scheduler.Settling Scheduler.Sound s.pollSettle := by
  refine ofWalk (.pollSettle s) fun h => ?_
  unfold State.pollSettle
  split
  · next hw => exact walk_sound _ hw.1 hw.2 (by simp [h.2, hw.1])
  · next hw => exact ⟨⟨fun hr => Option.isSome_iff_ne_none.mpr fun hn => hw ⟨hr, hn⟩, h.1⟩, h.2⟩

theorem joinRing (n : Slot) (s : State) : s.KeepsSound (s.joinRing n) := by
  refine afterSame (ofWalk (.joinRing n s) fun h => ?_)
  unfold State.joinRing
  dsimp only
  split
  · next hc =>
    exact beginRound_sound (h.pending_none (by simp [hc.2])) (by simp [hc.1])
  · exact h

/-- A member leaves with its poll, if that waits for a grant (R100). -/
theorem leaveRing (n : Slot) (s : State) : s.KeepsSettling (s.leaveRing n) := by
  refine ⟨rfl, rfl, fun h => ⟨fun hp => h.1 ?_, h.2⟩, id⟩
  simp only [State.leaveRing] at hp
  split at hp
  · cases hp
  · exact hp

theorem loseLease (n : Slot) (l : Lease) (q : Nat) (s : State) : s.KeepsSettling (s.loseLease n l q) :=
  afterSame (leaveRing n _)

theorem abandonOffer (n : Slot) (q : Nat) (s : State) : s.Keeps P P (s.abandonOffer n q) := by
  unfold State.abandonOffer
  split
  · exact same
  · split <;> exact same

theorem countAttempt (n : Slot) (x : Identity) (a : TrunkAddress) (bad : Bool) (s : State) :
    s.Keeps P P (s.countAttempt n x a bad) := by
  unfold State.countAttempt
  split
  · exact refl s
  · refine cond (fun _ => ?_) fun _ => same
    exact cond (fun _ => (cond (fun _ => same) fun _ => same).andRaise) fun _ => cond (fun _ => same) fun _ => same

theorem storeStatus (n : Slot) (l : Lease) (w : Half) (s : State) : s.Keeps P P (s.storeStatus n l w) :=
  cond (fun _ => same) fun _ => same

theorem renew (n : Slot) (l : Lease) (wasSuspect : Bool) (w : Half) (s : State) :
    s.Keeps P P (s.renew n l wasSuspect w) :=
  cond (fun _ => (storeStatus n _ w s).andSame) fun _ => storeStatus n _ w s

theorem countMiss (n : Slot) (l : Lease) (term miss : Nat) (wasSuspect : Bool) (s : State) :
    s.KeepsSettling (s.countMiss n l term miss wasSuspect) :=
  cond (fun _ => loseLease n l _ s) fun _ => cond (fun _ => same) fun _ => cond (fun _ => same) fun _ => same

theorem pollEffect (t : Txn) (o : AttemptOutcome) (s : State) : s.KeepsSettling (s.pollEffect t o) := by
  unfold State.pollEffect
  split
  · split
    · exact refl s
    · split
      · exact renew _ _ _ _ s
      · exact renew _ _ _ _ s
      · exact countMiss _ _ _ _ _ s
      · exact countMiss _ _ _ _ _ s
      · exact countMiss _ _ _ _ _ s
      · exact countMiss _ _ _ _ _ s
      · exact refl s
  · exact refl s

theorem pollTaken (n : Slot) (s : State) : s.KeepsSettling (s.pollTaken n) := by
  unfold State.pollTaken
  split
  · exact cond (fun _ => ⟨rfl, rfl, fun h => ⟨nofun, h.2⟩, id⟩) fun _ => same
  · exact same

theorem pollDone (t : Txn) (o : AttemptOutcome) (s : State) : s.KeepsSound (s.pollDone t o) := by
  unfold State.pollDone
  split
  · exact opens (((pollEffect t o s).trans (pollTaken _ _)).trans (pollSettle _))
  · exact refl s

theorem stopPolling (s : State) : s.KeepsSound s.stopPolling :=
  ⟨rfl, rfl, fun _ => ⟨iff_of_false nofun nofun, iff_of_true rfl rfl⟩, id⟩

/-- A mode that is not OFF is entered from a sound scheduler (R103, R108). -/
theorem enterPollMode {mode : PollMode} (hm : mode ≠ .off) (s : State) : s.KeepsSound (s.enterPollMode mode) := by
  have entered (h : s.poll.Sound) : Scheduler.Sound { s.poll with
      mode := mode, state := if s.poll.state = .off then .wait else s.poll.state } := by
    by_cases hs : s.poll.state = .off
    · simp [Scheduler.Sound, hs, hm, h.pending_none]
    · simpa [Scheduler.Sound, hs, hm] using h.1
  refine trans (t := { s with poll := { s.poll with
    mode := mode, state := if s.poll.state = .off then .wait else s.poll.state } }) ⟨rfl, rfl, entered, id⟩
      (cond (fun hc => ?_) fun _ => refl _)
  obtain ⟨hwait, -⟩ := hc
  exact ofWalk (.beginRound _) fun h => beginRound_sound (h.pending_none fun hr => nomatch hwait.symm.trans hr) hm

theorem setPollMode (mode : PollMode) (s : State) : s.KeepsSound (s.setPollMode mode) :=
  cond (fun _ => refl s) fun _ => cond (fun _ => stopPolling s) fun hm => enterPollMode hm s

theorem pollControlRequest (tag : Byte) (args : List Byte) (s : State) :
    s.KeepsSound (pollControlRequest tag args s) := by
  unfold Machine.pollControlRequest
  split
  · split
    · exact same
    · exact (setPollMode _ s).andSame
  · exact same

theorem pollRoundRequest (tag : Byte) (args : List Byte) (s : State) : s.KeepsSound (pollRoundRequest tag args s) := by
  unfold Machine.pollRoundRequest
  split
  · refine cond (fun _ => same) fun hm => cond (fun _ => same) fun hs => ?_
    refine (ofWalk (.beginRound s) fun h => ?_).andSame
    exact beginRound_sound (h.pending_none hs) (by simp [not_not.mp hm])
  · exact same

/-! ### The census -/

/-- A walk step taken when no probe and no step waits, after `u` has changed the census alone. -/
theorem censusWalk {s u : State} (h : s.census.Sound → u.census.pending = none ∧ u.census.stepPending = false)
    (k : u.engine = s.engine ∧ u.poll = s.poll := by exact ⟨rfl, rfl⟩) : s.Keeps P P u.censusWalk := by
  obtain ⟨hengine, hpoll⟩ := k
  have walks (v : State) : v.walkOrWait.engine = v.engine ∧ v.walkOrWait.poll = v.poll := by
    unfold State.walkOrWait
    split
    · exact ⟨rfl, rfl⟩
    · split <;> exact ⟨rfl, rfl⟩
  have walk : u.censusWalk.engine = u.engine ∧ u.censusWalk.poll = u.poll := by
    unfold State.censusWalk
    split
    · exact walks _
    · exact walks u
  obtain ⟨hengine', hpoll'⟩ := walk
  refine ⟨by rw [hengine', hengine], by rw [hengine', hengine], by rw [hpoll', hpoll]; exact id, fun hs => ?_⟩
  obtain ⟨hpending, hstep⟩ := h hs
  exact censusWalk_sound hpending hstep

theorem offerRelease (a : Address) (r : ReleaseReason) (s : State) : s.Keeps P P (s.offerRelease a r) :=
  cond (fun _ => same) fun _ => cond (fun _ => same) fun _ => same

theorem conflictAt (a : Address) (s : State) : s.Keeps P P (s.conflictAt a) := (offerRelease a .conflict s).andRaise

theorem rebind (n : Slot) (l : Lease) (q : Nat) (a : Address) (cls : Byte) (units : Nat) (s : State) :
    s.KeepsSound (s.rebind n l q a cls units) := by
  have moved : s.KeepsSound
      (if l.address = a then s else (s.putEntry l.address (quarantineEntry q)).putEntry a (.held n)) :=
    cond (fun _ => same) fun _ => same
  exact (moved.andSame (u := ((State.changeStatus n (rebound l a cls) (.bound (4 * units) 0) _).countAdopted))).trans
    (joinRing n _)

theorem adopt (x : Identity) (a : Address) (cls : Byte) (units : Nat) (s : State) :
    s.KeepsSound (s.adopt x a cls units) := by
  unfold State.adopt
  split
  · exact (joinRing _ _).afterSame
  · exact same

theorem takeAnswer (a : Address) (x : Identity) (cls : Byte) (units : Nat) (s : State) :
    s.KeepsSound (s.takeAnswer a x cls units) := by
  unfold State.takeAnswer
  split
  · split
    · exact refl s
    · refine cond (fun _ => ?_) fun _ => ?_
      · split
        · exact rebind _ _ _ _ _ _ s
        · exact refl s
      · split
        · exact offerRelease _ _ s
        · exact cond (fun _ => conflictAt a s) fun _ => rebind _ _ _ _ _ _ s
        · exact conflictAt a s
  · exact cond (fun _ => conflictAt a s) fun _ => adopt x a cls units s

theorem judgeProbe (a : Address) (o : AttemptOutcome) (payload : List Byte) (s : State) :
    s.KeepsSound (s.judgeProbe a o payload) := by
  cases o with
  | good => exact cond (fun _ => refl s) fun _ => takeAnswer _ _ _ _ s
  | noReply => exact refl s
  | garbled r => exact (offerRelease a .clash s).andRaise
  | lineFault => exact refl s

/-- The current probe is cleared and the walk goes on; in STEPPED only when a step waits, which is then taken (R133). -/
theorem probeTaken (s : State) : s.Keeps P P s.probeTaken := by
  have elsewhere (hm : s.census.mode ≠ .stepped) (hs : s.census.Sound) : s.census.stepPending = false :=
    hs.no_step (.inr hm)
  unfold State.probeTaken
  dsimp only
  split
  · refine cond (fun _ => censusWalk fun _ => ⟨rfl, rfl⟩) fun hstep => ⟨rfl, rfl, id, fun _ => ?_⟩
    exact ⟨iff_of_false nofun nofun, fun h => absurd h hstep⟩
  · next hm => exact censusWalk fun hs => ⟨rfl, elsewhere (fun e => nomatch hm.symm.trans e) hs⟩
  · next hm => exact censusWalk fun hs => ⟨rfl, elsewhere (fun e => nomatch hm.symm.trans e) hs⟩
  · next hm => exact censusWalk fun hs => ⟨rfl, elsewhere (fun e => nomatch hm.symm.trans e) hs⟩

theorem probeDone (t : Txn) (o : AttemptOutcome) (s : State) : s.KeepsSound (s.probeDone t o) := by
  unfold State.probeDone
  split
  · have judged := judgeProbe ‹Address› o (t.reply.getD []) s
    dsimp only
    split
    · exact cond (fun _ => judged.trans (probeTaken _)) fun _ => judged.andSame
    · exact judged.andSame
  · exact refl s

theorem beginSweep (first last : Address) (mode : CensusMode) (s : State) :
    s.Keeps P P (s.beginSweep first last mode) := by
  unfold State.beginSweep
  dsimp only
  split
  · exact ⟨rfl, rfl, id, fun _ => ⟨iff_of_false nofun nofun, nofun⟩⟩
  all_goals exact censusWalk fun _ => ⟨rfl, rfl⟩

/-- A step of a STEPPED census is taken, or waits for the probe that stands (R133). -/
theorem takeStep {s : State} (hm : s.census.mode = .stepped) : s.Keeps P P s.takeStep := by
  unfold State.takeStep
  split
  · next hs =>
    have hrun : s.census.state ≠ .running := fun e => nomatch hs.symm.trans e
    exact censusWalk fun h => ⟨h.pending_none hrun, h.no_step (.inl hrun)⟩
  · next hs => exact ⟨rfl, rfl, id, fun h => ⟨h.1, fun _ => ⟨hs, hm⟩⟩⟩
  · exact refl s

theorem stopCensus (s : State) : s.Keeps P P s.stopCensus :=
  ⟨rfl, rfl, id, fun _ => ⟨iff_of_false nofun nofun, nofun⟩⟩

theorem censusStartRequest (tag : Byte) (args : List Byte) (s : State) :
    s.Keeps P P (censusStartRequest tag args s) := by
  unfold Machine.censusStartRequest
  split
  · split
    · exact cond (fun _ => (beginSweep _ _ _ s).andSame) fun _ => cond (fun _ => (beginSweep _ _ _ s).andSame) fun _ => same
    · exact same
  · exact same

theorem censusStopRequest (tag : Byte) (args : List Byte) (s : State) : s.Keeps P P (censusStopRequest tag args s) := by
  unfold Machine.censusStopRequest
  split
  · exact (cond (fun _ => refl s) fun _ => stopCensus s).andSame
  · exact same

theorem censusStepRequest (tag : Byte) (args : List Byte) (s : State) : s.Keeps P P (censusStepRequest tag args s) := by
  unfold Machine.censusStepRequest
  split
  · refine cond (fun _ => same) fun hc => ?_
    exact (takeStep (not_not.mp fun hm => hc (.inl hm))).andSame
  · exact same

theorem timerStep (s : State) : s.Keeps P P s.timerStep := by
  unfold State.timerStep
  split
  · next hm => exact cond (fun _ => takeStep hm) fun _ => refl s
  · refine cond (fun hs => ?_) fun _ => refl s
    have hrun : s.census.state ≠ .running := fun e => nomatch hs.symm.trans e
    exact censusWalk fun h => ⟨h.pending_none hrun, h.no_step (.inl hrun)⟩
  · exact refl s
  · exact refl s

/-! ### Enrolment -/

theorem newcomer (j : Join) (s : State) : s.Keeps P P (s.newcomer j) := by
  unfold State.newcomer
  refine cond (fun _ => same) fun _ => ?_
  split
  · exact same
  · split <;> exact same

theorem takeJoin (j : Join) (s : State) : s.KeepsSound (s.takeJoin j) := by
  unfold State.takeJoin
  split
  · exact newcomer j s
  · next n _ =>
    split
    · exact refl s
    · next l _ =>
      have gone : s.KeepsSound ((s.rejoin n l .lost j).leaveRing n).pollSettle :=
        opens (((leaveRing n (s.rejoin n l .lost j)).afterSame).trans (pollSettle _))
      split
      · exact refl s
      · exact same
      · exact same
      · exact gone
      · exact gone
      · exact refl s

theorem takeResults (seen : List Identity) (results : List SubSlotResult) (s : State) :
    s.KeepsSound (s.takeResults seen results) := by
  induction results generalizing seen s with
  | nil => exact refl s
  | cons r rest ih =>
    cases r with
    | empty => exact ih seen s
    | collided => exact ih seen s
    | join j => exact cond (fun _ => ih seen s) fun _ => (takeJoin j s).trans (ih _ _)

theorem evaluateSolicit (results : List SubSlotResult) (s : State) : s.KeepsSound (s.evaluateSolicit results) := by
  unfold State.evaluateSolicit
  split
  · exact refl s
  all_goals exact takeResults [] results s

theorem offerDone (t : Txn) (o : AttemptOutcome) (s : State) : s.KeepsSound (s.offerDone t o) := by
  unfold State.offerDone
  split
  · split
    · exact refl s
    · cases o with
      | good => exact (joinRing _ _).afterSame
      | noReply => exact abandonOffer _ _ s
      | garbled r => exact abandonOffer _ _ s
      | lineFault => exact refl s
  · exact refl s

/-! ### Retirement and relays -/

theorem endReleasing (n : Slot) (full : Bool) (s : State) : s.Keeps P P (s.endReleasing n full) := by
  unfold State.endReleasing
  split
  · split <;> exact same
  · exact same

theorem completeRelease (t : Txn) (o : AttemptOutcome) (n : Slot) (tag : Byte) (a : Address) (s : State) :
    s.Keeps P P (s.completeRelease t o n tag a) := (cond (fun _ => endReleasing n _ s) fun _ => refl s).andSame

theorem releaseDone (t : Txn) (o : AttemptOutcome) (s : State) : s.Keeps P P (s.releaseDone t o) := by
  unfold State.releaseDone
  split
  · exact refl s
  · split
    · exact (completeRelease t o _ _ _ _).afterSame
    all_goals exact same

theorem relayDone (t : Txn) (o : AttemptOutcome) (s : State) : s.Keeps P P (s.relayDone t o) := by
  unfold State.relayDone
  split <;> exact same

theorem retireNow (n : Slot) (l : Lease) (s : State) : s.KeepsSound (s.retireNow n l) :=
  opens ((((leaveRing n (s.vacate n l _)).afterSame).andSame (u := State.dropOffer n _)).trans (pollSettle _))

theorem retireForcedRequest (tag : Byte) (args : List Byte) (s : State) :
    s.KeepsSound (retireForcedRequest tag args s) := by
  unfold Machine.retireForcedRequest
  split
  · split
    · exact same
    · refine cond (fun _ => same) fun _ => ?_
      split
      · exact same
      · split
        · exact same
        · exact (retireNow _ _ s).andSame
  · exact same

theorem retireByRelease (n : Slot) (l : Lease) (term : Nat) (tag : Byte) (s : State) :
    s.KeepsSound (s.retireByRelease n l term tag) := by
  have started (rs : List Release) : s.KeepsSound (((s.setReleases rs).startReleasing n l term).defer .retire) :=
    (opens (((leaveRing n ((s.setReleases rs).changeStatus n l (.releasing term))).afterSame).trans
      (pollSettle _))).andSame
  unfold State.retireByRelease
  split
  · exact cond (fun _ => same) fun _ => started _
  · exact cond (fun _ => same) fun _ => started _

theorem retireGracefulRequest (tag : Byte) (args : List Byte) (s : State) :
    s.KeepsSound (retireGracefulRequest tag args s) := by
  unfold Machine.retireGracefulRequest
  split
  · split
    · exact same
    · split
      · exact same
      · split
        · exact same
        · exact retireByRelease _ _ _ tag s
        · exact retireByRelease _ _ _ tag s
        · exact same
  · exact same

/-- The outcome of a transaction at its owner (Table 3-5). -/
theorem txnDone (t : Txn) (o : AttemptOutcome) (s : State) : s.KeepsSound (s.txnDone t o) := by
  unfold State.txnDone
  split
  · exact pollDone t o s
  · exact refl s
  · exact offerDone t o s
  · exact releaseDone t o s
  · exact probeDone t o s
  · exact relayDone t o s

theorem countTxnAttempt (t : Txn) (o : AttemptOutcome) (s : State) : s.Keeps P P (s.countTxnAttempt t o) := by
  unfold State.countTxnAttempt
  split
  · exact countAttempt _ _ _ _ s
  · exact countAttempt _ _ _ _ s
  · exact refl s

theorem countFailedOffer (t : Txn) (s : State) : s.Keeps P P (s.countFailedOffer t) := by
  unfold State.countFailedOffer
  split <;> exact same

/-! ### The fault drop, RESET_TRUNK and the strobe -/

theorem dropLease (s : State) (n : Slot) : s.KeepsSettling (s.dropLease n) := by
  unfold State.dropLease
  split
  · exact refl s
  · split
    · exact loseLease _ _ _ s
    · exact loseLease _ _ _ s
    · exact abandonOffer _ _ s
    · exact refl s

theorem settleReleases (full withData : Bool) (r : Result) (es : List Release) (s : State) :
    s.Keeps P P (s.settleReleases full withData r es) := by
  induction es generalizing s with
  | nil => exact refl s
  | cons e rest ih =>
    unfold State.settleReleases
    split
    · exact ((endReleasing _ full s).andSame).trans (ih _)
    all_goals exact ih s

theorem takeFaultDrop (s : State) : s.KeepsSound s.takeFaultDrop := by
  have dropped : s.KeepsSettling (allSlots.foldl State.dropLease s) := foldl dropLease allSlots s
  unfold State.takeFaultDrop
  dsimp only
  generalize allSlots.foldl State.dropLease s = t at dropped ⊢
  have settled := dropped.trans ((settleReleases false true .lineFault s.releases
    (State.setReleases [] { t with enrol := { t.enrol with offers := [] } })).afterSame)
  exact opens (settled.andRaise.trans (pollSettle _))

theorem dropEvent (s : State) : s.KeepsSound s.dropEvent :=
  cond (fun _ => (takeFaultDrop _).afterSame) fun _ => refl s

theorem cancelRelays (es : List Relay) (s : State) : s.Keeps P P (s.cancelRelays es) := by
  induction es generalizing s with
  | nil => exact refl s
  | cons e rest ih => exact (ih _).afterSame

/-- No poll stands, and in CONTINUOUS with members a round begins (R125). -/
theorem settlePolling (s : State) : s.KeepsSound s.settlePolling := by
  have settled (ring : List RingMember) : Scheduler.Sound { s.poll with
      ring := ring, pending := none, detached := none, state := if s.poll.mode = .off then .off else .wait } := by
    by_cases hm : s.poll.mode = .off <;> simp [Scheduler.Sound, hm]
  refine trans (t := { s with poll := { s.clearMarks.poll with
    pending := none, detached := none, state := if s.poll.mode = .off then .off else .wait } })
      ⟨rfl, rfl, fun _ => settled _, id⟩ (cond (fun hc => ?_) fun _ => refl _)
  obtain ⟨hmode, -⟩ := hc
  exact ofWalk (.beginRound _) fun _ => beginRound_sound rfl fun e => nomatch hmode.symm.trans e

theorem strobeLease (s : State) (n : Slot) : s.KeepsSettling (s.strobeLease n) := by
  unfold State.strobeLease
  split
  · exact refl s
  · split
    · exact cond (fun _ => loseLease _ _ _ s) fun _ => same
    · exact cond (fun _ => loseLease _ _ _ s) fun _ => same
    · exact cond (fun _ => same) fun _ => same
    · exact refl s

theorem takeStrobe (s : State) : s.KeepsSound s.takeStrobe :=
  opens (((foldl (fun _ _ => same) allAddresses s).trans (foldl strobeLease allSlots _)).trans (pollSettle _))

/-! ### Requests that touch no unit -/

theorem causeControlRequest (tag : Byte) (args : List Byte) (s : State) : s.Keeps P P (causeControlRequest tag args s) := by
  unfold Machine.causeControlRequest
  split
  · split
    · exact same
    · exact cond (fun _ => same) fun _ => same
  · exact same

theorem readCausesRequest (tag : Byte) (args : List Byte) (s : State) : s.Keeps P P (readCausesRequest tag args s) := by
  unfold Machine.readCausesRequest
  split <;> exact same

theorem removeChanges (ns : List Slot) (s : State) : s.Keeps P P (s.removeChanges ns) := foldl (fun _ _ => same) ns s

theorem clearChanges (s : State) : s.Keeps P P s.clearChanges := cond (fun _ => same) fun _ => refl s

theorem readChangesRequest (tag : Byte) (args : List Byte) (s : State) : s.Keeps P P (readChangesRequest tag args s) := by
  unfold Machine.readChangesRequest
  split
  · exact cond (fun _ => ((removeChanges (s.changeSet.take _) s).trans (clearChanges _)).andAnswer) fun _ => same
  · exact same

theorem readEngineRequest (tag : Byte) (args : List Byte) (s : State) : s.Keeps P P (readEngineRequest tag args s) := by
  unfold Machine.readEngineRequest
  split <;> exact same

theorem readConfigRequest (tag : Byte) (args : List Byte) (s : State) : s.Keeps P P (readConfigRequest tag args s) := by
  unfold Machine.readConfigRequest
  split
  · exact cond (fun _ => same) fun _ => same
  · exact same

theorem mapLeases (f : Lease → Lease) (s : State) : s.Keeps P P (s.mapLeases f) :=
  foldl (fun t n => by split <;> exact same) allSlots s

theorem writeEffect (q : Param) (before after : Nat) (s : State) : s.Keeps P P (s.writeEffect q before after) := by
  unfold State.writeEffect
  split
  · exact same
  · exact mapLeases _ s
  · exact mapLeases _ s
  · exact cond (fun _ => refl s) fun _ => mapLeases _ s
  · exact refl s

theorem configureRequest (tag : Byte) (args : List Byte) (s : State) : s.Keeps P P (configureRequest tag args s) := by
  unfold Machine.configureRequest
  split
  · next number lo hi =>
    split
    · exact same
    · next q _ =>
      have written : s.Keeps P P ((s.setParams (s.params.put (halfOf lo hi).toNat q)).writeEffect q (s.params.get q)
          (halfOf lo hi).toNat) := (writeEffect _ _ _ _).afterSame
      exact cond (fun _ => same) fun _ => cond (fun _ => same) fun _ => written.andSame
  · exact same

theorem readSlotRequest (tag : Byte) (args : List Byte) (s : State) : s.Keeps P P (readSlotRequest tag args s) := by
  unfold Machine.readSlotRequest
  split
  · split <;> exact same
  · exact same

theorem lookupIdentityRequest (tag : Byte) (args : List Byte) (s : State) :
    s.Keeps P P (lookupIdentityRequest tag args s) := by
  unfold Machine.lookupIdentityRequest
  split
  · split
    · exact same
    · split <;> exact same
  · exact same

theorem lookupAddressRequest (tag : Byte) (args : List Byte) (s : State) :
    s.Keeps P P (lookupAddressRequest tag args s) := by
  unfold Machine.lookupAddressRequest
  split
  · split <;> exact same
  · exact same

theorem setFieldsRequest (tag : Byte) (args : List Byte) (s : State) : s.Keeps P P (setFieldsRequest tag args s) := by
  unfold Machine.setFieldsRequest
  split
  · split
    · exact same
    · refine cond (fun _ => same) fun _ => ?_
      split
      · exact same
      · split <;> exact same
  · exact same

theorem pinRequest (tag : Byte) (args : List Byte) (s : State) : s.Keeps P P (pinRequest tag args s) := by
  unfold Machine.pinRequest
  split
  · dsimp only
    split
    · exact same
    · split
      · exact same
      · refine cond (fun _ => same) fun _ => ?_
        split <;> exact same
  · exact same

theorem ringMoveRequest (tag : Byte) (args : List Byte) (s : State) : s.KeepsSound (ringMoveRequest tag args s) := by
  unfold Machine.ringMoveRequest
  split
  · split
    · exact cond (fun _ => same) fun _ => cond (fun _ => same) fun _ => cond (fun _ => same) fun _ => same
    · exact same
  · exact same

theorem setEnrolModeRequest (tag : Byte) (args : List Byte) (s : State) : s.Keeps P P (setEnrolModeRequest tag args s) := by
  unfold Machine.setEnrolModeRequest
  split
  · split <;> exact same
  · exact same

theorem admitAddRequest (tag : Byte) (args : List Byte) (s : State) : s.Keeps P P (admitAddRequest tag args s) := by
  unfold Machine.admitAddRequest
  split
  · exact cond (fun _ => same) fun _ => cond (fun _ => same) fun _ => same
  · exact same

theorem admitRemoveRequest (tag : Byte) (args : List Byte) (s : State) : s.Keeps P P (admitRemoveRequest tag args s) := by
  unfold Machine.admitRemoveRequest
  split
  · exact cond (fun _ => same) fun _ => same
  · exact same

theorem admitClearRequest (tag : Byte) (args : List Byte) (s : State) : s.Keeps P P (admitClearRequest tag args s) := by
  unfold Machine.admitClearRequest
  split <;> exact same

theorem admitReadRequest (tag : Byte) (args : List Byte) (s : State) : s.Keeps P P (admitReadRequest tag args s) := by
  unfold Machine.admitReadRequest
  split
  · refine cond (fun _ => same) fun _ => ?_
    split <;> exact same
  · exact same

theorem censusStatusRequest (tag : Byte) (args : List Byte) (s : State) : s.Keeps P P (censusStatusRequest tag args s) := by
  unfold Machine.censusStatusRequest
  split <;> exact same

theorem relayRequest (tag : Byte) (args : List Byte) (s : State) : s.Keeps P P (relayRequest tag args s) := by
  unfold Machine.relayRequest
  split
  · refine cond (fun _ => same) fun _ => ?_
    split
    · dsimp only
      split
      · exact cond (fun _ => same) fun _ => same
      · exact cond (fun _ => cond (fun _ => same) fun _ => same) fun _ => same
    · exact same
  · exact same

theorem relayCancelRequest (tag : Byte) (args : List Byte) (s : State) : s.Keeps P P (relayCancelRequest tag args s) := by
  unfold Machine.relayCancelRequest
  split
  · exact cond (fun _ => same) fun _ => cond (fun _ => same) fun _ => same
  · exact same

theorem echoRequest (tag : Byte) (args : List Byte) (s : State) : s.Keeps P P (echoRequest tag args s) :=
  cond (fun _ => same) fun _ => same

theorem badFrameRequest (e : ReqEntry) (s : State) : s.Keeps P P (badFrameRequest e s) := by
  cases e <;> exact same

theorem unknownRequestAnswer (e : ReqEntry) (s : State) : s.Keeps P P (unknownRequestAnswer e s) := by
  cases e <;> exact same

/-! ### The host port -/

theorem assemble (b : Byte) (a : Assembly) (s : State) : s.Keeps P P (s.assemble b a) := by
  cases a with
  | expectLength =>
    exact cond (fun _ => cond (fun _ => same) fun _ => same) fun _ => cond (fun _ => same) fun _ => same
  | inFrame n got => exact cond (fun _ => same) fun _ => same
  | skip m => exact same
  | discard => exact refl s

theorem sendByte (out : ResponseByte) (s : State) : s.Keeps P P (s.sendByte out) := by
  cases out <;> exact same

/-! ### The Timing Unit -/

theorem secondsEvent (s : State) : s.KeepsSound s.secondsEvent :=
  cond (fun _ => (takeStrobe _).afterSame) fun _ => refl s

/-- In PACED an expiry in WAIT begins a round, for which no poll stands yet (R109). -/
theorem paceEvent (s : State) : s.KeepsSound s.paceEvent := by
  unfold State.paceEvent
  refine cond (fun _ => ?_) fun _ => refl s
  dsimp only
  refine cond (fun hm => ?_) fun _ => same
  split
  · next hs =>
    refine afterSame (ofWalk (.beginRound _) fun h => ?_)
    exact beginRound_sound (h.pending_none fun e => nomatch hs.symm.trans e) fun e => nomatch hm.symm.trans e
  · exact same
  · exact same

theorem solicitEvent (s : State) : s.Keeps P P s.solicitEvent :=
  cond (fun _ => cond (fun _ => same) fun _ => same) fun _ => refl s

theorem censusStepEvent (s : State) : s.Keeps P P s.censusStepEvent :=
  cond (fun _ => (timerStep _).afterSame) fun _ => refl s

theorem takeDue (s : State) : s.KeepsSound s.takeDue :=
  (((secondsEvent s).trans (paceEvent _)).trans (solicitEvent _)).trans ((censusStepEvent _).trans (dropEvent _))

theorem countTick (s : State) : s.Keeps P P s.countTick := same

theorem tickEvent (s : State) : s.KeepsSound s.tickEvent := (takeDue s).trans (countTick _)

theorem refclkPeriod (s : State) : s.KeepsSound s.refclkPeriod := by
  have clock : s.KeepsSound (if s.engine.state.timed then
      { s with engine := { s.engine with clock := s.engine.clock + 1 } } else s) :=
    cond (fun _ => same) fun _ => refl s
  exact clock.trans (cond (fun _ => tickEvent _) fun _ => same)

end State.Keeps

/-! ### The Engine, state by state (R50, R52, R54) -/

/-- The three units sound together. -/
def State.UnitsSound (s : State) : Prop := s.EngineSound ∧ s.SchedulerSound ∧ s.CensusSound

/-- The states in which a transaction has the trunk. -/
def EngineState.Busy (st : EngineState) : Prop := st = .send ∨ st = .listen ∨ st = .receive

theorem EngineState.not_busy {st : EngineState} :
    ¬st.Busy ↔ st = .off ∨ st = .idle ∨ st = .guarding ∨ st = .held := by
  cases st <;> simp [EngineState.Busy]

/-- With no transaction in flight the Engine is outside its busy states. -/
theorem engineSound_free {s : State} (ht : s.engine.txn = none) (hs : ¬s.engine.state.Busy) : s.EngineSound :=
  ⟨by simp [ht], fun hb => absurd hb hs, by simp [ht]⟩

/-- A transaction in flight in a busy state has its attempt number within its maximum. -/
theorem engineSound_busy {s : State} {t : Txn} (ht : s.engine.txn = some t) (hs : s.engine.state.Busy)
    (h1 : 1 ≤ t.attempt) (hmax : t.attempt ≤ t.maxAttempts) : s.EngineSound := by
  have hg : s.engine.state ≠ .guarding := by rintro e; simp [e, EngineState.Busy] at hs
  have hb : s.engine.state = .send ∨ s.engine.state = .listen ∨ s.engine.state = .receive := hs
  refine ⟨fun _ => by tauto, fun _ => by rw [ht]; rfl, fun x hx => ?_⟩
  obtain rfl := Option.some.inj (ht.symm.trans hx)
  exact ⟨h1, hmax, fun e => absurd e hg⟩

/-- Between two attempts one is left. -/
theorem engineSound_between {s : State} {t : Txn} (ht : s.engine.txn = some t) (hs : s.engine.state = .guarding)
    (h1 : 1 ≤ t.attempt) (hmax : t.attempt < t.maxAttempts) : s.EngineSound := by
  refine ⟨fun _ => by tauto, fun _ => by rw [ht]; rfl, fun x hx => ?_⟩
  obtain rfl := Option.some.inj (ht.symm.trans hx)
  exact ⟨h1, hmax.le, fun _ => hmax⟩

/-- In a busy state a transaction is in flight. -/
theorem State.EngineSound.txn_busy {s : State} (h : s.EngineSound) (hs : s.engine.state.Busy) :
    ∃ t, s.engine.txn = some t ∧ 1 ≤ t.attempt ∧ t.attempt ≤ t.maxAttempts := by
  obtain ⟨t, ht⟩ := Option.isSome_iff_exists.mp (h.2.1 hs)
  obtain ⟨h1, hmax, -⟩ := h.2.2 t ht
  exact ⟨t, ht, h1, hmax⟩

/-- Outside the busy states and GUARD none is. -/
theorem State.EngineSound.txn_none {s : State} (h : s.EngineSound) (hs : ¬s.engine.state.Busy)
    (hg : s.engine.state ≠ .guarding) : s.engine.txn = none := by
  cases ht : s.engine.txn with
  | none => rfl
  | some t =>
    have hany := h.1 (by rw [ht]; rfl)
    simp only [EngineState.Busy] at hs
    tauto

/-- What leaves the Engine where it is keeps the units sound. -/
theorem State.Keeps.units {s t : State} (h : s.KeepsSound t) (hs : s.UnitsSound) : t.UnitsSound := by
  obtain ⟨he, hp, hc⟩ := hs
  exact ⟨by simpa only [State.EngineSound, h.state, h.txn] using he, h.poll hp, h.census hc⟩

/-- A change of other blocks, or of other fields of the Engine. -/
theorem State.UnitsSound.same {s t : State} (hs : s.UnitsSound) (h : s.KeepsSound t := by exact ⟨rfl, rfl, id, id⟩) :
    t.UnitsSound := h.units hs

/-- From one busy state to another the transaction stays. -/
theorem State.UnitsSound.busy {s t : State} (hs : s.UnitsSound) (hb : s.engine.state.Busy) (hb' : t.engine.state.Busy)
    (k : t.engine.txn = s.engine.txn ∧ t.poll = s.poll ∧ t.census = s.census := by exact ⟨rfl, rfl, rfl⟩) :
    t.UnitsSound := by
  obtain ⟨he, hp, hc⟩ := hs
  obtain ⟨htxn, hpoll, hcensus⟩ := k
  obtain ⟨x, hx, h1, hmax⟩ := he.txn_busy hb
  refine ⟨engineSound_busy (htxn.trans hx) hb' h1 hmax, ?_, ?_⟩
  · simpa only [State.SchedulerSound, hpoll] using hp
  · simpa only [State.CensusSound, hcensus] using hc

namespace State.UnitsSound

variable {s : State}

/-- One of two states, by a condition. -/
theorem cond {t u : State} {c : Prop} [Decidable c] (h : t.UnitsSound) (k : u.UnitsSound) :
    (if c then t else u).UnitsSound := by
  split
  · exact h
  · exact k

/-! ### Leaving the trunk -/

theorem answerDisable (hs : s.UnitsSound) : s.answerDisable.UnitsSound := by
  unfold State.answerDisable
  split
  · exact hs
  · exact hs.same

/-- The Engine enters OFF once nothing is in flight (R61). -/
theorem enterOff (hp : s.SchedulerSound) (hc : s.CensusSound) (ht : s.engine.txn = none) : s.enterOff.UnitsSound :=
  answerDisable (s := (s.enterEngine .off).raise .engineOff)
    ⟨engineSound_free ht (EngineState.not_busy.mpr (.inl rfl)), hp, hc⟩

theorem leaveTrunk (hp : s.SchedulerSound) (hc : s.CensusSound) (ht : s.engine.txn = none) :
    s.leaveTrunk.UnitsSound := by
  unfold State.leaveTrunk
  split
  · exact enterOff hp hc ht
  · exact ⟨engineSound_free ht (EngineState.not_busy.mpr (by simp)), hp, hc⟩

/-- A rising of TRUNK_FAULT ends the transaction in flight at its owner (R66). -/
theorem abortForFault (hs : s.UnitsSound) : s.abortForFault.UnitsSound := by
  have ⟨_, hp, hc⟩ := hs
  unfold State.abortForFault
  split
  · exact hs
  · split
    · exact leaveTrunk hp hc ‹_›
    · have done (t : Txn) := State.Keeps.txnDone { t with lastOutcome := some .lineFault } .lineFault (s.setTxn none)
      exact leaveTrunk ((done _).poll hp) ((done _).census hc) (done _).txn

/-! ### Ends of attempts (R54) -/

/-- An attempt's end leaves the Engine in GUARD, with the transaction when an attempt is left. -/
theorem endAttempt (hs : s.UnitsSound) (ended : Nat) (o : AttemptOutcome) (payload : Option (List Byte)) :
    (s.endAttempt ended o payload).UnitsSound := by
  have ⟨he, _, _⟩ := hs
  unfold State.endAttempt
  split
  · exact hs
  · next t ht =>
    obtain ⟨h1, -, -⟩ := he.2.2 t ht
    dsimp only
    obtain ⟨-, hp, hc⟩ := (State.Keeps.countTxnAttempt { t with
      lastOutcome := some o, reply := match payload with | some p => some p | none => t.reply } o s).units hs
    split
    · exact (State.Keeps.txnDone _ o _).units
        ⟨engineSound_free rfl (EngineState.not_busy.mpr (by simp)), hp, hc⟩
    · next hmore =>
      exact (State.Keeps.countFailedOffer _ _).units
        ⟨engineSound_between rfl rfl h1 (Nat.not_le.mp fun h => hmore (.inr h)), hp, hc⟩

theorem endListen (hs : s.UnitsSound) (ended : Nat) : (s.endListen ended).UnitsSound := by
  obtain ⟨-, hp, hc⟩ := hs
  exact (State.Keeps.evaluateSolicit _ _).units
    ⟨engineSound_free rfl (EngineState.not_busy.mpr (by simp [State.setTxn])), hp, hc⟩

/-! ### Reception -/

theorem keepFrame (hs : s.UnitsSound) (short : Bool) : (s.keepFrame short).UnitsSound := hs.same

theorem endListenFrame (hs : s.UnitsSound) (hr : s.engine.state = .receive) (short : Bool) (now : Nat) :
    (s.endListenFrame short now).UnitsSound :=
  cond (endListen (hs.keepFrame short) now) (hs.busy (.inr (.inr hr)) (.inr (.inl rfl)))

theorem endReply (hs : s.UnitsSound) (short : Bool) (ended : Nat) : (s.endReply short ended).UnitsSound := by
  unfold State.endReply
  split
  · exact hs
  · split
    · exact hs
    · split <;> exact endAttempt hs _ _ _

theorem passTo (hs : s.UnitsSound) (t : Nat) : (s.passTo t).UnitsSound := hs.same

theorem idleTimeout (hs : s.UnitsSound) : s.idleTimeout.UnitsSound := by
  unfold State.idleTimeout
  split
  · next hc =>
    obtain ⟨hr, -⟩ := hc
    dsimp only
    split
    · exact endListenFrame (hs.passTo _) hr _ _
    · exact endReply (hs.passTo _) _ _
  · exact hs

theorem windowTimeout (hs : s.UnitsSound) : s.windowTimeout.UnitsSound := cond (endAttempt (hs.passTo _) _ _ _) hs

theorem listenTimeout (hs : s.UnitsSound) : s.listenTimeout.UnitsSound := cond (endListen (hs.passTo _) _) hs

theorem catchUp (hs : s.UnitsSound) (t : Nat) : (s.catchUp t).UnitsSound := by
  have idle : (if s.engine.reception.idleFrom + s.params.charTime < t then s.idleTimeout else s).UnitsSound :=
    cond hs.idleTimeout hs
  exact cond (cond idle.listenTimeout idle) (cond idle.windowTimeout idle)

theorem beginCharacter (hs : s.UnitsSound) (t : Nat) : (s.beginCharacter t).UnitsSound := by
  cases h : s.engine.state with
  | listen =>
    rw [beginCharacter_listen h]
    exact hs.busy (.inr (.inl h)) (.inr (.inr rfl))
  | receive =>
    rw [beginCharacter_receive h]
    exact hs.same
  | _ =>
    rw [beginCharacter_deaf (listening_eq_false.mpr (by simp [h]))]
    exact hs

theorem startCharacter (hs : s.UnitsSound) (t : Nat) : (s.startCharacter t).UnitsSound :=
  cond ((hs.catchUp _).beginCharacter _) hs

theorem gatherReply (hs : s.UnitsSound) (hr : s.engine.state = .receive) (c : RxChar) (t : Nat) :
    (s.gatherReply c t).UnitsSound := by
  have ⟨he, hp, hc⟩ := hs
  obtain ⟨x, hx, h1, hmax⟩ := he.txn_busy (.inr (.inr hr))
  by_cases h : c.flag = true ∧ s.engine.reception.chars ≠ []
  · rw [gatherReply_short h.1 h.2]
    exact endReply hs _ _
  · rw [gatherReply_next (by simpa [or_iff_not_imp_left] using h) hx]
    have gathered : ((s.setReception { s.engine.reception with
        chars := s.engine.reception.chars ++ [c] }).setTxn (some { x with
          errorMap := markError x.errorMap s.engine.reception.chars.length c })).UnitsSound :=
      ⟨engineSound_busy rfl (.inr (.inr hr)) h1 hmax, hp, hc⟩
    dsimp only
    split
    · exact endReply gathered _ _
    · exact gathered

theorem gatherListen (hs : s.UnitsSound) (hr : s.engine.state = .receive) (c : RxChar) (t : Nat) :
    (s.gatherListen c t).UnitsSound := by
  have gathered := hs.same (t := s.setReception { s.engine.reception with chars := s.engine.reception.chars ++ [c] })
  exact cond (cond (endListen (hs.keepFrame true) t) (hs.keepFrame true).same)
    (cond (endListenFrame gathered hr _ _) gathered)

theorem receiveCharacter (hs : s.UnitsSound) (c : RxChar) : (s.receiveCharacter c).UnitsSound := by
  have begun : (if s.engine.reception.charBegan = none then s.startCharacter s.presumedBegin else s).UnitsSound :=
    cond (hs.startCharacter _) hs
  unfold State.receiveCharacter
  dsimp only
  generalize (if s.engine.reception.charBegan = none then s.startCharacter s.presumedBegin else s) = u at begun ⊢
  split
  · next t hr _ =>
    have ended := begun.same (t := u.endCharacter t)
    exact cond (gatherListen ended hr c t) (gatherReply ended hr c t)
  · exact begun

/-! ### Grants (3.3) -/

/-- A granted transaction begins at an attempt within its maximum. -/
theorem beginTxn (hp : s.SchedulerSound) (hc : s.CensusSound) {t : Txn} (h1 : 1 ≤ t.attempt)
    (hmax : t.attempt ≤ t.maxAttempts) (burst : Nat) : (s.beginTxn t burst).UnitsSound :=
  ⟨engineSound_busy rfl (.inl rfl) h1 hmax, hp, hc⟩

theorem grantOffer (hs : s.UnitsSound) (o : Offer) : (s.grantOffer o).UnitsSound := by
  have ⟨_, hp, hc⟩ := hs
  unfold State.grantOffer
  split
  · exact hs
  · exact beginTxn hp hc (by simp only [newTxn]; omega) (Nat.min_le_right _ _) _

theorem grantRelease (hs : s.UnitsSound) (e : Release) (rest : List Release) : (s.grantRelease e rest).UnitsSound := by
  obtain ⟨-, hp, hc⟩ := hs
  exact beginTxn (s := s.setReleases _) hp hc (Nat.le_refl 1) (Nat.le_add_right 1 _) _

theorem grantRelay (hs : s.UnitsSound) (e : Relay) (rest : List Relay) (n : Slot) (l : Lease) :
    (s.grantRelay e rest n l).UnitsSound := by
  obtain ⟨-, hp, hc⟩ := hs
  refine beginTxn (s := s.setRelays _) hp hc (Nat.le_refl 1) ?_ _
  dsimp only [newTxn]
  split
  · exact Nat.le_add_right 1 _
  · exact Nat.le_refl 1

theorem grantBroadcast (hs : s.UnitsSound) (e : Relay) (rest : List Relay) : (s.grantBroadcast e rest).UnitsSound := by
  obtain ⟨-, hp, hc⟩ := hs
  exact beginTxn (s := s.setRelays _) hp hc (Nat.le_refl 1) (Nat.le_refl 1) _

/-- A probe granted stays pending (R135). -/
theorem grantProbe (hs : s.UnitsSound) {a : Address} (ha : s.waitingProbe = some a) :
    (s.grantProbe a).UnitsSound := by
  obtain ⟨-, hp, hc, hstep⟩ := hs
  have stands : s.census.pending.isSome = true := by
    unfold State.waitingProbe at ha
    split at ha
    · next h => rw [h]; rfl
    · cases ha
  exact beginTxn (s := { s with census := { s.census with pending := some { address := a, inFlight := true } } }) hp
    ⟨iff_of_true (hc.mpr stands) rfl, hstep⟩ (Nat.le_refl 1) (Nat.le_refl 1) _

/-- A poll granted stays pending (R106). -/
theorem grantPoll (hs : s.UnitsSound) {n : Slot} (hn : s.waitingPoll = some n) : (s.grantPoll n).UnitsSound := by
  have ⟨_, ⟨hp, hmode⟩, hc⟩ := hs
  have stands : s.poll.pending.isSome = true := by
    unfold State.waitingPoll at hn
    split at hn
    · next h => rw [h]; rfl
    · cases hn
  unfold State.grantPoll
  split
  · exact hs
  · exact beginTxn (s := { s with poll := { s.poll with pending := some { slot := n, inFlight := true } } })
      ⟨iff_of_true (hp.mpr stands) rfl, hmode⟩ hc (Nat.le_refl 1) (Nat.le_add_right 1 _) _

theorem grantLow (hs : s.UnitsSound) : s.grantLow.UnitsSound := by
  have ⟨_, hp, hc⟩ := hs
  unfold State.grantLow
  split
  · exact grantProbe hs ‹_›
  · split
    · exact grantPoll hs ‹_›
    · split
      · exact beginTxn (s := { s with enrol := { s.enrol with
          solicitDue := false, solicitNumber := s.enrol.solicitNumber + 1 } }) hp hc (Nat.le_refl 1) (Nat.le_refl 1) _
      · exact hs

theorem preferredPoll_waits {n : Slot} (h : s.preferredPoll = some n) : s.waitingPoll = some n := by
  unfold State.preferredPoll at h
  split at h
  · exact h
  · cases h

theorem arbitrateRelays (hs : s.UnitsSound) (queue : List Relay) : (s.arbitrateRelays queue).UnitsSound := by
  induction queue generalizing s with
  | nil =>
    unfold State.arbitrateRelays
    split
    · exact grantPoll hs (preferredPoll_waits ‹_›)
    · exact grantLow hs
  | cons e rest ih =>
    unfold State.arbitrateRelays
    split
    · exact grantPoll hs (preferredPoll_waits ‹_›)
    · split
      · exact grantBroadcast hs e rest
      · split
        · split
          · exact grantRelay hs e rest _ _
          · exact ih hs.same
        · exact ih hs.same

theorem arbitrate (hs : s.UnitsSound) : s.arbitrate.UnitsSound := by
  unfold State.arbitrate
  split
  · exact grantOffer hs _
  · exact grantRelease hs _ _
  · exact arbitrateRelays hs _

/-! ### Trunk control (3.4) -/

theorem enterFree (hs : s.UnitsSound) (ht : s.engine.txn = none) {st : EngineState} (hst : ¬st.Busy) :
    (s.enterEngine st).UnitsSound := by
  obtain ⟨-, hp, hc⟩ := hs
  exact ⟨engineSound_free ht hst, hp, hc⟩

theorem enableRequest (hs : s.UnitsSound) (tag : Byte) (args : List Byte) : (enableRequest tag args s).UnitsSound := by
  have enabled : s.enableTrunk.UnitsSound := by
    unfold State.enableTrunk
    split
    · next hoff =>
      have ht := hs.1.txn_none (EngineState.not_busy.mpr (.inl hoff)) (by simp [hoff])
      refine enterFree hs ht (EngineState.not_busy.mpr ?_)
      split <;> simp
    · exact hs
  unfold Machine.enableRequest
  split
  · split
    · exact hs.same
    · split
      · exact hs.same
      · exact enabled.same
  · exact hs.same

theorem disableRequest (hs : s.UnitsSound) (tag : Byte) (args : List Byte) : (disableRequest tag args s).UnitsSound := by
  have ⟨he, hp, hc⟩ := hs
  unfold Machine.disableRequest
  split
  · exact hs.same
  · split
    · exact hs.same
    · next h => exact (enterOff hp hc (he.txn_none (EngineState.not_busy.mpr (by simp [h])) (by simp [h]))).same
    · next h => exact (enterOff hp hc (he.txn_none (EngineState.not_busy.mpr (by simp [h])) (by simp [h]))).same
    · exact hs.same

/-- RESET_TRUNK leaves no probe, no step and no poll, but for the round that may begin (R63). -/
theorem resetTrunk (hs : s.UnitsSound) : s.resetTrunk.UnitsSound := by
  obtain ⟨-, hp, -⟩ := hs
  have cancelled : s.KeepsSound (State.cancelRelays s.relays (s.setRelays [])) :=
    (State.Keeps.cancelRelays s.relays (s.setRelays [])).afterSame
  unfold State.resetTrunk
  dsimp only
  generalize State.cancelRelays s.relays (s.setRelays []) = t at cancelled ⊢
  have settled := (cancelled.andSame (u := t.setReleases [])).trans
    (State.Keeps.settleReleases true false .cancelled s.releases _)
  generalize State.settleReleases true false .cancelled s.releases (t.setReleases []) = u at settled ⊢
  have abandoned := settled.trans (State.Keeps.foldl (f := fun u (o : Offer) => u.abandonOffer o.slot u.offerQuarantine)
    (fun u o => State.Keeps.abandonOffer o.slot u.offerQuarantine u) s.enrol.offers u)
  generalize s.enrol.offers.foldl (fun u o => u.abandonOffer o.slot u.offerQuarantine) u = v at abandoned ⊢
  have polling := State.Keeps.settlePolling
    (State.settleCensus { v with enrol := { v.enrol with offers := [], solicitDue := false } })
  have census : (State.settleCensus { v with enrol := { v.enrol with offers := [], solicitDue := false } }).CensusSound :=
    ⟨iff_of_false nofun nofun, nofun⟩
  exact enterOff (polling.poll (abandoned.poll hp)) (polling.census census) rfl

/-! ### Resets -/

theorem held (pins : Pins) (pending : List Instr) : (State.held pins pending).UnitsSound :=
  ⟨engineSound_free rfl (EngineState.not_busy.mpr (.inl rfl)), ⟨iff_of_false nofun nofun, iff_of_true rfl rfl⟩,
    ⟨iff_of_false nofun nofun, nofun⟩⟩

theorem restart (hs : s.UnitsSound) : s.restart.UnitsSound := cond hs.same hs.same

theorem resetRequest (hs : s.UnitsSound) (tag : Byte) (args : List Byte) : (resetRequest tag args s).UnitsSound := by
  unfold Machine.resetRequest
  split
  · exact (restart ((held s.pins s.pending).same
      (t := (State.held s.pins s.pending).setAccess s.host.access.afterReset))).same
  · exact hs.same

/-! ### Commands -/

/-- An event of a part that is out of reset. -/
theorem ofRunning (hs : s.UnitsSound) {f : State → State} (hf : (f s).UnitsSound) {t : State}
    (h : whenRunning f s = .next t) : t.UnitsSound := by
  rcases whenRunning_cases h with ⟨-, rfl⟩ | ⟨-, rfl⟩
  · exact hs
  · exact hf

/-- The take of an entry of the Request FIFO. -/
theorem ofHead (hs : s.UnitsSound) {row : Instr} {handle : ReqEntry → State → State}
    (hf : ∀ e (u : State), u.UnitsSound → (handle e u).UnitsSound) {t : State}
    (h : takeHead row handle s = .next t) : t.UnitsSound := by
  rcases takeHead_cases h with rfl | ⟨e, rest, -, -, -, -, rfl⟩
  · exact hs
  · exact hf e _ hs.same

/-- The take of a request. -/
theorem ofRequest (hs : s.UnitsSound) {row : Instr} {handle : Byte → List Byte → State → State}
    (hf : ∀ {u : State}, u.UnitsSound → ∀ tag args, (handle tag args u).UnitsSound) {t : State}
    (h : takeRequest row handle s = .next t) : t.UnitsSound := by
  refine ofHead hs (fun e u hu => ?_) h
  cases e with
  | frame bytes => exact hf hu _ _
  | marker b => exact hu

/-- The take of a request that leaves the Engine where it is. -/
theorem ofKeeping (hs : s.UnitsSound) {row : Instr} {handle : Byte → List Byte → State → State}
    (hf : ∀ tag args (u : State), u.KeepsSound (handle tag args u)) {t : State}
    (h : takeRequest row handle s = .next t) : t.UnitsSound := ofRequest hs (fun hu tag args => (hf tag args _).units hu) h

theorem execRstAssert (hs : s.UnitsSound) {t : State} (h : execRstAssert s = .next t) : t.UnitsSound := by
  unfold Machine.execRstAssert at h
  split at h <;> cases h
  · exact hs
  · exact held _ _

theorem execRstRise (hs : s.UnitsSound) {t : State} (h : execRstRise s = .next t) : t.UnitsSound := by
  unfold Machine.execRstRise at h
  split at h <;> cases h
  · exact restart ((held { s.pins with rstLow := false } s.pending).same (t := State.setAccess _ _))
  · exact hs

theorem execCsFall (hs : s.UnitsSound) {t : State} (h : execCsFall s = .next t) : t.UnitsSound := by
  unfold Machine.execCsFall at h
  split at h
  · cases h
    exact hs
  · exact ofRunning (s := { s with pins := { s.pins with csLow := true } }) hs.same
      ((State.Keeps.cond (fun _ => .same) fun _ => .refl _).units hs.same) h

theorem execCsRise (hs : s.UnitsSound) {t : State} (h : execCsRise s = .next t) : t.UnitsSound := by
  unfold Machine.execCsRise at h
  split at h
  · refine ofRunning (s := { s with pins := { s.pins with csLow := false } }) hs.same ?_ h
    split <;> exact hs.same
  · cases h
    exact hs

theorem execTrunkFaultRising (hs : s.UnitsSound) {t : State} (h : execTrunkFaultRising s = .next t) :
    t.UnitsSound := by
  unfold Machine.execTrunkFaultRising at h
  split at h
  · cases h
    exact hs
  · exact ofRunning (s := { s with pins := { s.pins with fault := true } }) hs.same
      (abortForFault (s := State.beginFault _) hs.same) h

/-- From HELD, where nothing is in flight, a falling leads to GUARD (R67). -/
theorem execTrunkFaultFalling (hs : s.UnitsSound) {t : State} (h : execTrunkFaultFalling s = .next t) :
    t.UnitsSound := by
  unfold Machine.execTrunkFaultFalling at h
  split at h
  · split at h
    · cases h
      exact hs.same
    · obtain rfl := Host.Outcome.next.inj h
      have fallen := ((State.Keeps.dropEvent s).units hs).same (t := { s.dropEvent with
        pins := { s.dropEvent.pins with fault := false }, engine := { s.dropEvent.engine with grace := .stopped } })
      dsimp only
      split
      · next hheld =>
        have ht := fallen.1.txn_none (EngineState.not_busy.mpr (by simp [hheld])) (by simp [hheld])
        exact enterFree fallen ht (EngineState.not_busy.mpr (by simp))
      · exact fallen
  · cases h
    exact hs

theorem execFrameSent (hs : s.UnitsSound) {t : State} (h : execFrameSent s = .next t) : t.UnitsSound := by
  refine ofRunning hs ?_ h
  split
  · next hsend =>
    split
    · exact hs
    · split
      · exact hs.busy (.inl hsend) (.inr (.inl rfl))
      · exact endAttempt (hs.passTo _) _ _ _
  · exact hs

/-- The next attempt of a transaction is the one that was left; with none in flight the Engine is free (R54, R51). -/
theorem execGuardEnd (hs : s.UnitsSound) {t : State} (h : execGuardEnd s = .next t) : t.UnitsSound := by
  have ⟨he, hp, hc⟩ := hs
  refine ofRunning hs ?_ h
  split
  · next hg =>
    split
    · next x hx =>
      obtain ⟨-, -, hleft⟩ := he.2.2 x hx
      exact ⟨engineSound_busy rfl (.inl rfl) (Nat.le_add_left 1 _) (hleft hg), hp, hc⟩
    · next hx =>
      split
      · exact enterOff hp hc hx
      · exact enterFree hs hx (EngineState.not_busy.mpr (by simp))
  · exact hs

theorem execRequestByte (hs : s.UnitsSound) {b : Byte} {t : State} (h : execRequestByte b s = .next t) :
    t.UnitsSound := by
  refine ofRunning hs ?_ h
  split
  · exact (State.Keeps.assemble b _ s).units hs
  · exact hs

theorem execResponseByteBegin (hs : s.UnitsSound) {t : State} (h : execResponseByteBegin s = .next t) :
    t.UnitsSound := by
  refine ofRunning hs ?_ h
  split
  · exact hs.same
  · exact hs

theorem execResponseByteRead (hs : s.UnitsSound) {t : State} (h : execResponseByteRead s = .next t) :
    t.UnitsSound := by
  refine ofRunning hs ?_ h
  split
  · exact ((State.Keeps.sendByte _ s).units hs).same
  · exact hs.same
  · exact hs

/-- Every command keeps the units sound. -/
theorem exec (hs : s.UnitsSound) {c : Instr} {t : State} (h : exec c s = .next t) : t.UnitsSound := by
  cases c with
  | rstAssert => exact execRstAssert hs h
  | rstRise => exact execRstRise hs h
  | csFall => exact execCsFall hs h
  | accessByte b => exact ofRunning hs ((State.Keeps.cond (fun _ => .same) fun _ => .refl s).units hs) h
  | requestByte b => exact execRequestByte hs h
  | csRise => exact execCsRise hs h
  | responseByteRead => exact execResponseByteRead hs h
  | badFrame => exact ofHead hs (fun e u hu => (State.Keeps.badFrameRequest e u).units hu) h
  | unknownRequest => exact ofHead hs (fun e u hu => (State.Keeps.unknownRequestAnswer e u).units hu) h
  | echo => exact ofKeeping hs .echoRequest h
  | readEngine => exact ofKeeping hs .readEngineRequest h
  | configure => exact ofKeeping hs .configureRequest h
  | readConfig => exact ofKeeping hs .readConfigRequest h
  | enable => exact ofRequest hs enableRequest h
  | disable => exact ofRequest hs disableRequest h
  | resetTrunk => exact ofRequest hs (fun hu _ _ => (resetTrunk hu).same) h
  | reset => exact ofRequest hs resetRequest h
  | causeControl => exact ofKeeping hs .causeControlRequest h
  | readCauses => exact ofKeeping hs .readCausesRequest h
  | readChanges => exact ofKeeping hs .readChangesRequest h
  | readSlot => exact ofKeeping hs .readSlotRequest h
  | lookupIdentity => exact ofKeeping hs .lookupIdentityRequest h
  | lookupAddress => exact ofKeeping hs .lookupAddressRequest h
  | setFields => exact ofKeeping hs .setFieldsRequest h
  | pin => exact ofKeeping hs .pinRequest h
  | retireForced => exact ofKeeping hs .retireForcedRequest h
  | retireGraceful => exact ofKeeping hs .retireGracefulRequest h
  | ringMove => exact ofKeeping hs .ringMoveRequest h
  | setEnrolMode => exact ofKeeping hs .setEnrolModeRequest h
  | admitAdd => exact ofKeeping hs .admitAddRequest h
  | admitRemove => exact ofKeeping hs .admitRemoveRequest h
  | admitClear => exact ofKeeping hs .admitClearRequest h
  | admitRead => exact ofKeeping hs .admitReadRequest h
  | pollControl => exact ofKeeping hs .pollControlRequest h
  | pollRound => exact ofKeeping hs .pollRoundRequest h
  | censusStart => exact ofKeeping hs .censusStartRequest h
  | censusStop => exact ofKeeping hs .censusStopRequest h
  | censusStep => exact ofKeeping hs .censusStepRequest h
  | censusStatus => exact ofKeeping hs .censusStatusRequest h
  | relay => exact ofKeeping hs .relayRequest h
  | relayCancel => exact ofKeeping hs .relayCancelRequest h
  | tick => exact ofRunning hs ((State.Keeps.tickEvent s).units hs) h
  | secondsStrobe => exact ofRunning hs ((State.Keeps.secondsEvent s).units hs) h
  | paceExpiry => exact ofRunning hs ((State.Keeps.paceEvent s).units hs) h
  | solicitExpiry => exact ofRunning hs ((State.Keeps.solicitEvent s).units hs) h
  | censusStepExpiry => exact ofRunning hs ((State.Keeps.censusStepEvent s).units hs) h
  | trunkFaultRising => exact execTrunkFaultRising hs h
  | trunkFaultFalling => exact execTrunkFaultFalling hs h
  | faultDrop => exact ofRunning hs ((State.Keeps.dropEvent s).units hs) h
  | grant => exact ofRunning hs (cond (arbitrate hs) hs) h
  | frameSent => exact execFrameSent hs h
  | characterReceived data flag parity stop => exact ofRunning hs (receiveCharacter hs _) h
  | replyIdleTimeout => exact ofRunning hs (idleTimeout hs) h
  | replyWindowTimeout => exact ofRunning hs (windowTimeout hs) h
  | solicitListenEnd => exact ofRunning hs (listenTimeout hs) h
  | guardEnd => exact execGuardEnd hs h
  | startBit began middle =>
    exact ofRunning (f := fun u => if middle then u else u.startCharacter began) hs (cond hs (startCharacter hs began)) h
  | responseByteBegin => exact execResponseByteBegin hs h

/-- Every step keeps the units sound. -/
theorem step (hs : s.UnitsSound) {t : State} (h : step s = .next t) : t.UnitsSound := by
  unfold Machine.step at h
  split at h
  · next c rest hq => exact exec (s := { s with pending := rest }) hs.same h
  · unfold idleStep at h
    split at h
    · cases h
      exact hs
    · split at h
      · exact exec hs h
      · cases h
        exact (State.Keeps.refclkPeriod s).units hs

end State.UnitsSound

/-- Settles O58: the operations keep the three units sound, the scheduler by the walk step that ends a change. -/
theorem everyStepKeepsTheUnitStates : Obligations.EveryStepKeepsTheUnitStates :=
  fun _ _ hs h => State.UnitsSound.step hs h

end Sys2Proof.Machine

/-! ## Reports and trunk control (3.4, 3.6, 10.3) -/
namespace Sys2Proof.Machine
set_option Elab.async false

/-! ### READ_CAUSES and READ_ENGINE (R71, R210) -/

/-- The in-flight kind by the kind of the transaction, if one is in flight. -/
theorem inFlightCode_eq (s : State) : s.inFlightCode =
    match (s.engine.txn.map Txn.kind : Option TxnKind) with
    | none => 0 | some .poll => 1 | some .solicit => 2 | some .offer => 3 | some .release => 4 | some .probe => 5
    | some .relay => 6 := by
  unfold State.inFlightCode
  cases s.engine.txn with
  | none => rfl
  | some t => simp only [Option.map_some]; cases t.kind <;> rfl

/-- Settles O14: each request without arguments answers what stands. -/
theorem readCausesAndReadEngineReport : Obligations.ReadCausesAndReadEngineReport := by
  refine ⟨fun s k tag rest h => ?_, fun s k tag rest h => ?_⟩
  · rw [exec_readCauses h]
    rfl
  · rw [exec_readEngine h, readEngineRequest, answer_eq_replied, inFlightCode_eq]
    rfl

/-! ### ENABLE and DISABLE (R60, R61) -/

/-- ENGINE_OFF and RESPONSE_READY, set one after the other. -/
theorem flags_off_ready (flags : Half) : flags ||| Cause.engineOff.mask ||| Cause.responseReady.mask = flags ||| 0x8002 := by
  rw [BitVec.or_assoc]
  rfl

/-- With no DISABLE pending OFF is entered without a response. -/
theorem enterOff_silent {s : State} (h : s.engine.pendingDisable = none) :
    s.enterOff = (s.inState .off).raise .engineOff := by
  have h' : ((s.enterEngine .off).raise .engineOff).engine.pendingDisable = none := h
  rw [State.enterOff, State.answerDisable, h']
  rfl

/-- A pending DISABLE is answered as OFF is entered. -/
theorem enterOff_answers {s : State} {tag : Byte} (h : s.engine.pendingDisable = some tag) :
    s.enterOff =
      let v := s.inState .off
      { v with
        engine := { v.engine with pendingDisable := none }
        host := { s.host with
          responses := s.host.responses ++ [5, 0x05, tag, 0x00, 0], reserved := s.host.reserved - 5 }
        causes := { s.causes with flags := s.causes.flags ||| 0x8002 } } := by
  have h' : ((s.enterEngine .off).raise .engineOff).engine.pendingDisable = some tag := h
  rw [State.enterOff, State.answerDisable, h', ← flags_off_ready]
  rfl

section Control
variable {s : State} (tag : Byte)

theorem enableRequest_busy (h : s.engine.pendingDisable.isSome = true) :
    enableRequest tag [1] s = s.replied [5, 0x05, tag, 0x01, s.engine.state.code] := by
  rw [enableRequest, if_neg (by decide), if_pos h]
  rfl

theorem enableRequest_free (h : s.engine.pendingDisable = none) :
    enableRequest tag [1] s = s.enableTrunk.replied [5, 0x05, tag, 0x00, s.enableTrunk.engine.state.code] := by
  rw [enableRequest, if_neg (by decide), if_neg (by simp [h])]
  rfl

theorem disableRequest_busy (h : s.engine.pendingDisable.isSome = true) (args : List Byte) :
    disableRequest tag args s = s.replied [5, 0x05, tag, 0x01, s.engine.state.code] := if_pos h

/-- With no DISABLE pending the Engine's state decides. -/
theorem disableRequest_free (h : s.engine.pendingDisable = none) (args : List Byte) :
    disableRequest tag args s =
      match s.engine.state with
      | .off => s.replied [5, 0x05, tag, 0x00, 0]
      | .idle => s.enterOff.replied [5, 0x05, tag, 0x00, 0]
      | .held => s.enterOff.replied [5, 0x05, tag, 0x00, 0]
      | _ => { s with
          host := { s.host with reserved := s.host.reserved + 5 }
          engine := { s.engine with pendingDisable := some tag } } := by
  rw [disableRequest, if_neg (by simp [h])]
  cases s.engine.state <;> rfl

end Control

/-- Settles O20: the requests' equations, read in each state of the Engine. -/
theorem enableAndDisableMoveTheEngine : Obligations.EnableAndDisableMoveTheEngine := by
  refine ⟨rfl, fun s k tag rest => ⟨fun action h h1 h2 h3 => ?_, fun h => ?_, fun h => ?_⟩⟩
  · rw [exec_enable h (by simpa using h2) (by simpa using h3), enableRequest, if_pos h1]
    rfl
  · rw [exec_enable h (by decide) (by decide)]
    refine ⟨fun hp => ?_, fun hp hs => ?_, fun hp hs => ?_⟩
    · rw [enableRequest_busy (s := s.popped rest) tag hp]
      rfl
    · have same : (s.popped rest).enableTrunk = s.popped rest := if_neg hs
      rw [enableRequest_free (s := s.popped rest) tag hp, same]
      rfl
    · have moved : (s.popped rest).enableTrunk = (s.popped rest).inState (if s.pins.fault then .held else .idle) :=
        if_pos hs
      rw [enableRequest_free (s := s.popped rest) tag hp, moved]
      cases s.pins.fault <;> rfl
  · rw [exec_disable h]
    refine ⟨fun hp => ?_, fun hp hs => ?_, fun hp hs => ?_, fun hp hoff hidle hheld => ?_⟩
    · rw [disableRequest_busy (s := s.popped rest) tag hp]
      rfl
    · have hs' : (s.popped rest).engine.state = .off := hs
      rw [disableRequest_free (s := s.popped rest) tag hp, hs']
    · have off := enterOff_silent (s := s.popped rest) hp
      rcases hs with hs | hs
      · have hs' : (s.popped rest).engine.state = .idle := hs
        rw [disableRequest_free (s := s.popped rest) tag hp, hs', off]
        rfl
      · have hs' : (s.popped rest).engine.state = .held := hs
        rw [disableRequest_free (s := s.popped rest) tag hp, hs', off]
        rfl
    · rw [disableRequest_free (s := s.popped rest) tag hp]
      split
      · exact absurd ‹_› hoff
      · exact absurd ‹_› hidle
      · exact absurd ‹_› hheld
      · rfl

end Sys2Proof.Machine

/-! ## Attempts, faults and grants (3.1 to 3.5) -/
namespace Sys2Proof.Machine
set_option Elab.async false

/-! ### The end of an attempt (R54, R55) -/

/-- The record of a transaction once an attempt has ended. -/
def Txn.ended (t : Txn) (o : AttemptOutcome) (payload : Option (List Byte)) : Txn :=
  { t with
    lastOutcome := some o
    reply := match payload with
      | some p => some p
      | none => t.reply }

/-- After GOOD, or after the last attempt, the outcome goes to the owner. -/
theorem endAttempt_last {s : State} {t : Txn} (ht : s.engine.txn = some t) {o : AttemptOutcome}
    (h : o = .good ∨ t.maxAttempts ≤ t.attempt) (ended : Nat) (payload : Option (List Byte)) :
    s.endAttempt ended o payload =
      State.txnDone (t.ended o payload) o (((s.countTxnAttempt (t.ended o payload) o).enterGuard ended).setTxn none) := by
  simp only [State.endAttempt, ht]
  exact if_pos h

/-- Otherwise the transaction goes on. -/
theorem endAttempt_goesOn {s : State} {t : Txn} (ht : s.engine.txn = some t) {o : AttemptOutcome} (ho : o ≠ .good)
    (h : t.attempt < t.maxAttempts) (ended : Nat) (payload : Option (List Byte)) :
    s.endAttempt ended o payload =
      State.countFailedOffer (t.ended o payload)
        (((s.countTxnAttempt (t.ended o payload) o).enterGuard ended).setTxn (some (t.ended o payload))) := by
  simp only [State.endAttempt, ht]
  exact if_neg (by rintro (e | e); exacts [ho e, Nat.not_le.mpr h e])

/-- Only an attempt of a POLL or a RELAY to a lease is counted (R54, R120). -/
theorem countTxnAttempt_eq (t : Txn) (o : AttemptOutcome) (s : State) : s.countTxnAttempt t o =
    match t.slot, t.identity with
    | some n, some x => if t.kind = .poll ∨ t.kind = .relay then s.countAttempt n x t.address o.isBad else s
    | _, _ => s := by
  unfold State.countTxnAttempt
  cases t.kind <;> cases t.slot <;> cases t.identity <;> rfl

/-- Only an OFFER's entry counts a failed attempt (R94). -/
theorem countFailedOffer_eq (t : Txn) (s : State) : s.countFailedOffer t = { s with
    enrol := { s.enrol with offers := s.enrol.offers.map (fun e =>
      if t.kind = .offer ∧ t.slot = some e.slot then { e with attempts := e.attempts + 1 } else e) } } := by
  unfold State.countFailedOffer
  split
  · next n hk hn => simp [State.countOfferAttempt, hk, hn, eq_comm]
  · next hno =>
    have other (e : Offer) : ¬(t.kind = .offer ∧ t.slot = some e.slot) := fun h => hno e.slot h.1 h.2
    simp [other]

/-- Short of a fault, bad is what is not GOOD. -/
theorem isBad_eq {o : AttemptOutcome} (h : o ≠ .lineFault) : o.isBad = decide (o ≠ .good) := by
  cases o with
  | lineFault => exact absurd rfl h
  | _ => rfl

/-! ### The end of a guard (R51, R54, R61) -/

section Guard
variable {s : State} (hr : s.pins.rstLow = false) (hg : s.engine.state = .guarding)
include hr hg

theorem exec_guardEnd_next {t : Txn} (ht : s.engine.txn = some t) : exec .guardEnd s =
    .next ((s.enterEngine .send).setTxn (some { t with attempt := t.attempt + 1, errorMap := 0 })) :=
  (whenRunning_running hr).trans (by simp only [hg, ht, if_true])

theorem exec_guardEnd_idle (ht : s.engine.txn = none) (hd : s.engine.pendingDisable = none) :
    exec .guardEnd s = .next (s.enterEngine .idle) :=
  (whenRunning_running hr).trans (by simp only [hg, ht, hd, if_true])

theorem exec_guardEnd_off (ht : s.engine.txn = none) {tag : Byte} (hd : s.engine.pendingDisable = some tag) :
    exec .guardEnd s = .next s.enterOff :=
  (whenRunning_running hr).trans (by simp only [hg, ht, hd, if_true])

end Guard

/-- Settles O43: the end of an attempt by what follows it, and each event in the state that it ends. -/
theorem attemptsEndInAGuard : Obligations.AttemptsEndInAGuard := by
  refine fun s hr => ⟨fun t ht => ⟨fun ended o payload ho => ?_, fun hs he => ?_, fun hs he => ?_, fun hs hk => ?_,
    fun hs hc hk e he => ?_, fun hs => ?_⟩, fun ht hs => ⟨fun hd => ?_, fun tag hd => ?_⟩⟩
  · intro r bad counted u
    have hcounted : s.countTxnAttempt (t.ended o payload) o = counted := by
      rw [countTxnAttempt_eq, isBad_eq ho]
      rfl
    refine ⟨fun h => ?_, fun hgood h => ?_⟩
    · rw [endAttempt_last ht h, hcounted]
      rfl
    · rw [endAttempt_goesOn ht hgood h, hcounted, countFailedOffer_eq]
      rfl
  · rw [exec_frameSent hr hs ht, if_pos he]
    rfl
  · rw [exec_frameSent hr hs ht, if_neg (by simp [he])]
    rfl
  · rw [exec_replyWindowTimeout hr, windowTimeout_listen hs (inListen_other ht hk)]
    rfl
  · rw [exec_replyIdleTimeout hr, idleTimeout_reply hs hc (inListen_other ht hk)]
    exact congrArg Host.Outcome.next (endReply_judged (s := s.passTo _) ht he true _)
  · rw [exec_guardEnd_next hr hs ht]
    rfl
  · rw [exec_guardEnd_idle hr hs ht hd]
    rfl
  · rw [exec_guardEnd_off hr hs ht hd, enterOff_answers hd]

/-! ### The edges of TRUNK_FAULT (R65 to R68) -/

/-- A rising outside OFF leaves the trunk once the owner has the transaction in flight. -/
theorem leaveTrunk_eq (u : State) : u.leaveTrunk =
    match u.engine.pendingDisable with
    | none => u.inState .held
    | some tag =>
      let v := u.inState .off
      { v with
        engine := { v.engine with pendingDisable := none }
        host := { u.host with
          responses := u.host.responses ++ [5, 0x05, tag, 0x00, 0], reserved := u.host.reserved - 5 }
        causes := { u.causes with flags := u.causes.flags ||| 0x8002 } } := by
  unfold State.leaveTrunk
  cases h : u.engine.pendingDisable with
  | none => rfl
  | some tag => exact enterOff_answers h

section Rising
variable {s : State}

theorem exec_trunkFaultRising (hr : s.pins.rstLow = false) (hf : s.pins.fault = false) : exec .trunkFaultRising s =
    .next (State.beginFault { s with pins := { s.pins with fault := true } }).abortForFault := by
  rw [exec, execTrunkFaultRising, if_neg (by simp [hf])]
  exact whenRunning_running (s := { s with pins := { s.pins with fault := true } }) hr

theorem abortForFault_off (h : s.engine.state = .off) : s.abortForFault = s := by simp [State.abortForFault, h]

theorem abortForFault_free (h : s.engine.state ≠ .off) (ht : s.engine.txn = none) :
    s.abortForFault = s.leaveTrunk := by
  unfold State.abortForFault
  split
  · exact absurd ‹_› h
  · simp only [ht]

theorem abortForFault_txn (h : s.engine.state ≠ .off) {t : Txn} (ht : s.engine.txn = some t) : s.abortForFault =
    ((s.setTxn none).txnDone { t with lastOutcome := some .lineFault } .lineFault).leaveTrunk := by
  unfold State.abortForFault
  split
  · exact absurd ‹_› h
  · simp only [ht]

end Rising

namespace State.LeavesTrunk

theorem foldl {α : Type} {f : State → α → State} (h : ∀ (s : State) (a : α), s.LeavesTrunk (f s a)) (xs : List α)
    (s : State) : s.LeavesTrunk (xs.foldl f s) := by
  induction xs generalizing s with
  | nil => exact refl s
  | cons x xs ih => exact (h s x).trans (ih _)

theorem dropLease (s : State) (n : Slot) : s.LeavesTrunk (s.dropLease n) := by
  unfold State.dropLease
  split
  · exact refl s
  · split
    · exact same
    · exact same
    · exact abandonOffer _ _ s
    · exact refl s

theorem settleReleases (full withData : Bool) (r : Result) (es : List Release) (s : State) :
    s.LeavesTrunk (s.settleReleases full withData r es) := by
  induction es generalizing s with
  | nil => exact refl s
  | cons e rest ih =>
    unfold State.settleReleases
    split
    · exact ((endReleasing _ full s).andSame).trans (ih _)
    all_goals exact ih s

theorem takeFaultDrop (s : State) : s.LeavesTrunk s.takeFaultDrop := by
  have dropped : s.LeavesTrunk (allSlots.foldl State.dropLease s) := foldl dropLease allSlots s
  unfold State.takeFaultDrop
  dsimp only
  generalize allSlots.foldl State.dropLease s = t at dropped ⊢
  have settled := dropped.trans ((settleReleases false true .lineFault s.releases
    (State.setReleases [] { t with enrol := { t.enrol with offers := [] } })).afterSame)
  exact settled.andRaise.trans (pollSettle _)

end State.LeavesTrunk

/-- A drop not due changes nothing. -/
theorem dropEvent_notDue {s : State} (h : s.engine.dropDue = false) : s.dropEvent = s := if_neg (by simp [h])

theorem dropEvent_due {s : State} (h : s.engine.dropDue = true) :
    s.dropEvent = State.takeFaultDrop { s with engine := { s.engine with dropDue := false } } := if_pos h

/-- A fault drop leaves the pins, and none is due after it. -/
theorem dropEvent_after (s : State) : s.dropEvent.pins = s.pins ∧ s.dropEvent.engine.dropDue = false := by
  cases h : s.engine.dropDue with
  | false =>
    rw [dropEvent_notDue h]
    exact ⟨rfl, h⟩
  | true =>
    rw [dropEvent_due h]
    obtain ⟨hpins, hengine⟩ := State.LeavesTrunk.takeFaultDrop { s with engine := { s.engine with dropDue := false } }
    exact ⟨hpins, by rw [hengine]⟩

/-- A drop that is due is taken ahead of the falling (log entry 15). -/
theorem exec_trunkFaultFalling_afterDrop {s : State} (hr : s.pins.rstLow = false) (hf : s.pins.fault = true) :
    exec .trunkFaultFalling s = exec .trunkFaultFalling s.dropEvent := by
  obtain ⟨hpins, hdue⟩ := dropEvent_after s
  have hr' : s.dropEvent.pins.rstLow = false := by rw [hpins, hr]
  have hf' : s.dropEvent.pins.fault = true := by rw [hpins, hf]
  rw [exec_trunkFaultFalling hr' hf' hdue]
  simp only [exec, execTrunkFaultFalling, hf, hr, if_true]
  rfl

/-- Settles O38: a rising by what is in flight, a falling by the drop that may be due. -/
theorem faultEdgesMoveTheEngine : Obligations.FaultEdgesMoveTheEngine := by
  refine fun s hr => ⟨fun hf => ?_, fun hf hd u hu => ?_, fun hf hd => ?_⟩
  · rw [exec_trunkFaultRising hr hf]
    intro faulted leave
    have leaves (u : State) : u.leaveTrunk = leave u := leaveTrunk_eq u
    have begun : State.beginFault { s with pins := { s.pins with fault := true } } = faulted := rfl
    rw [begun]
    refine ⟨fun hs => ?_, fun hs ht => ?_, fun hs t ht => ?_, fun hs t ht hk => ?_⟩
    · rw [abortForFault_off (s := faulted) hs]
    · rw [abortForFault_free (s := faulted) hs ht, leaves]
    · rw [abortForFault_txn (s := faulted) hs ht, leaves]
      rfl
    · rw [abortForFault_txn (s := faulted) hs ht, leaves]
      simp only [State.txnDone, hk]
      rfl
  · rw [exec_faultDrop hr] at hu
    obtain rfl := Host.Outcome.next.inj hu
    exact exec_trunkFaultFalling_afterDrop hr hf
  · rw [exec_trunkFaultFalling hr hf hd]
    rfl

/-! ### The grant order (Table 3-6) -/

section Grant
variable {s : State}

theorem waitingPoll_waits {n : Slot} (h : s.poll.pending = some ⟨n, false⟩) : s.waitingPoll = some n := by
  simp [State.waitingPoll, h]

theorem waitingPoll_none (h : ∀ n, s.poll.pending ≠ some ⟨n, false⟩) : s.waitingPoll = none := by
  unfold State.waitingPoll
  split
  · next p hp =>
    obtain ⟨n, inFlight⟩ := p
    cases inFlight with
    | false => exact absurd hp (h n)
    | true => rfl
  · rfl

theorem waitingProbe_waits {a : Address} (h : s.census.pending = some ⟨a, false⟩) : s.waitingProbe = some a := by
  simp [State.waitingProbe, h]

theorem waitingProbe_none (h : ∀ a, s.census.pending ≠ some ⟨a, false⟩) : s.waitingProbe = none := by
  unfold State.waitingProbe
  split
  · next p hp =>
    obtain ⟨a, inFlight⟩ := p
    cases inFlight with
    | false => exact absurd hp (h a)
    | true => rfl
  · rfl

/-- The relay-burst preference (R58). -/
theorem preferredPoll_waits {n : Slot} (hb : s.params.relayBurst ≤ s.engine.burst)
    (h : s.poll.pending = some ⟨n, false⟩) : s.preferredPoll = some n := (if_pos hb).trans (waitingPoll_waits h)

theorem preferredPoll_none (h : s.engine.burst < s.params.relayBurst ∨ ∀ n, s.poll.pending ≠ some ⟨n, false⟩) :
    s.preferredPoll = none := by
  unfold State.preferredPoll
  split
  · next hb => exact waitingPoll_none (h.resolve_left (Nat.not_lt.mpr hb))
  · rfl

/-! ### The sources, in order -/

theorem arbitrate_offer {o : Offer} {os : List Offer} (h : s.enrol.offers = o :: os) : s.arbitrate = s.grantOffer o := by
  simp only [State.arbitrate, h]

theorem arbitrate_release {e : Release} {es : List Release} (ho : s.enrol.offers = []) (h : s.releases = e :: es) :
    s.arbitrate = s.grantRelease e es := by simp only [State.arbitrate, ho, h]

theorem arbitrate_relays (ho : s.enrol.offers = []) (h : s.releases = []) : s.arbitrate = s.arbitrateRelays s.relays := by
  simp only [State.arbitrate, ho, h]

theorem arbitrateRelays_preferred {n : Slot} (h : s.preferredPoll = some n) (queue : List Relay) :
    s.arbitrateRelays queue = s.grantPoll n := by
  cases queue <;> simp only [State.arbitrateRelays, h]

theorem arbitrateRelays_nil (h : s.preferredPoll = none) : s.arbitrateRelays [] = s.grantLow := by
  simp only [State.arbitrateRelays, h]

theorem arbitrateRelays_broadcast (h : s.preferredPoll = none) {e : Relay} (he : e.target = .broadcast)
    (rest : List Relay) : s.arbitrateRelays (e :: rest) = s.grantBroadcast e rest := by
  simp only [State.arbitrateRelays, h, he]

theorem arbitrateRelays_bound (h : s.preferredPoll = none) {e : Relay} {n : Slot} {l : Lease} (he : e.target = .slot n)
    (hl : s.lease n = some l) (hb : isBound (some l) = true) (rest : List Relay) :
    s.arbitrateRelays (e :: rest) = s.grantRelay e rest n l := by
  simp only [State.arbitrateRelays, h, he, hl, hb, if_true]

/-- A relay whose lease is not bound is refused, and the arbiter looks again (R59). -/
theorem arbitrateRelays_refused (h : s.preferredPoll = none) {e : Relay} {n : Slot} (he : e.target = .slot n)
    (hb : isBound (s.lease n) = false) (rest : List Relay) :
    s.arbitrateRelays (e :: rest) = (s.refuseRelay e rest n).arbitrateRelays rest := by
  cases hl : s.lease n with
  | none => simp only [State.arbitrateRelays, h, he, hl]
  | some l =>
    rw [hl] at hb
    simp only [State.arbitrateRelays, h, he, hl, hb, Bool.false_eq_true, if_false]

theorem grantLow_probe {a : Address} (h : s.waitingProbe = some a) : s.grantLow = s.grantProbe a := by
  simp only [State.grantLow, h]

theorem grantLow_poll {n : Slot} (ha : s.waitingProbe = none) (h : s.waitingPoll = some n) :
    s.grantLow = s.grantPoll n := by simp only [State.grantLow, ha, h]

theorem grantLow_solicit (ha : s.waitingProbe = none) (hn : s.waitingPoll = none) :
    s.grantLow = if s.enrol.solicitDue then s.grantSolicit else s := by simp only [State.grantLow, ha, hn]

theorem grantPoll_eq {n : Slot} {l : Lease} (h : s.lease n = some l) : s.grantPoll n =
    State.sending (newTxn .poll (some n) (some l.identity) (.station l.address) none
      (pollFrame l.address s.params.leaseTerm) (some ⟨.station l.address, .status, none⟩) 1 (1 + s.params.pollRetries)) 0
      { s with poll := { s.poll with pending := some ⟨n, true⟩ } } := by
  simp only [State.grantPoll, h]
  rfl

theorem grantOffer_eq {o : Offer} {l : Lease} (h : s.lease o.slot = some l) : s.grantOffer o =
    s.sending (newTxn .offer (some o.slot) (some l.identity) (.station l.address) none
      (offerFrame l.identity l.address s.params.leaseTerm) (some ⟨.station l.address, .accept, some l.identity⟩)
      (min (o.attempts + 1) (1 + s.params.offerRetries)) (1 + s.params.offerRetries)) 0 := by
  simp only [State.grantOffer, h]
  rfl

/-- What a RELEASE captures, field by field (R151). -/
theorem releaseCapture_eq (e : Release) (s : State) : s.releaseCapture e =
    (match e.reason with
     | .retire n _ => some n
     | _ => none,
     match e.reason with
     | .retire n _ => (s.lease n).map (fun l => l.identity)
     | _ => none,
     match e.reason with
     | .retire _ tag => some tag
     | _ => none) := by
  unfold State.releaseCapture
  cases e.reason <;> rfl

end Grant

/-- Settles O40: the arbiter's order, source by source. -/
theorem grantFollowsTheGrantOrder : Obligations.GrantFollowsTheGrantOrder := by
  intro s hr hi txn burst poll
  have polled {n : Slot} {l : Lease} (hl : s.lease n = some l) : s.grantPoll n = poll n l := grantPoll_eq hl
  rw [exec_grant hr hi]
  refine ⟨fun o os l ho hl => ?_, fun ho e es he => ?_, fun ho hrel => ⟨fun n l hb hp hl => ?_, fun hno => ?_⟩⟩
  · rw [arbitrate_offer ho, grantOffer_eq hl]
    rfl
  · rw [arbitrate_release ho he, State.grantRelease, releaseCapture_eq]
    rfl
  · rw [arbitrate_relays ho hrel, arbitrateRelays_preferred (preferredPoll_waits hb hp), polled hl]
  · have unpreferred := preferredPoll_none hno
    rw [arbitrate_relays ho hrel]
    refine ⟨fun e es he => ?_, fun he => ?_⟩
    · intro granted
      rw [he]
      refine ⟨fun ht => ?_, fun n l ht hl hb => ?_, fun n ht hb => ?_⟩
      · rw [arbitrateRelays_broadcast unpreferred ht]
        rfl
      · rw [arbitrateRelays_bound unpreferred ht hl hb]
        rfl
      · have again : exec .grant (s.refuseRelay e es n) = .next ((s.refuseRelay e es n).arbitrateRelays es) := by
          rw [exec_grant (s := s.refuseRelay e es n) hr hi, arbitrate_relays (s := s.refuseRelay e es n) ho hrel]
          rfl
        rw [arbitrateRelays_refused unpreferred ht hb]
        exact again.symm
    · have low : s.arbitrateRelays s.relays = s.grantLow := by rw [he, arbitrateRelays_nil unpreferred]
      rw [low]
      refine ⟨fun a ha => ?_, fun ha => ⟨fun n l hn hl => ?_, fun hn => ⟨fun hd => ?_, fun hd => ?_⟩⟩⟩
      · rw [grantLow_probe (waitingProbe_waits ha)]
        rfl
      · rw [grantLow_poll (waitingProbe_none ha) (waitingPoll_waits hn), polled hl]
      · rw [grantLow_solicit (waitingProbe_none ha) (waitingPoll_none hn), if_pos hd]
        rfl
      · rw [grantLow_solicit (waitingProbe_none ha) (waitingPoll_none hn), if_neg (by simp [hd])]

end Sys2Proof.Machine

/-! ## The settlement of trunk work (3.4, 3.5)

A fault drop and a RESET_TRUNK walk the slots, the Release Queue or the Offer List. Part way through, the state is told by
which slots have been settled, by the responses written, and by the bytes those responses had reserved. -/
namespace Sys2Proof.Machine
set_option Elab.async false

/-! ### One lease and its address -/

/-- What a settlement makes of a lease, where `q` seconds withhold an address that a lost lease keeps (R63, R69, R70). -/
def Lease.settled (q : Nat) (l : Lease) : Option Lease :=
  match l.status with
  | .bound _ _ => some { l with status := .lost q }
  | .suspect _ _ => some { l with status := .lost q }
  | .offered .fresh => none
  | .offered .reserved => some { l with status := .reserved }
  | .offered .lost => some { l with status := .lost q }
  | .releasing _ => none
  | _ => some l

/-- What it makes of the lease's address entry: an offer to a newcomer withholds it for `q` seconds, a release for
QUARANTINE_MIN, after its frozen term when `full`. -/
def Lease.withheld (full : Bool) (q min : Nat) (l : Lease) (e : AddrEntry) : AddrEntry :=
  match l.status with
  | .offered .fresh => quarantineEntry q
  | .releasing term => quarantineEntry (if full then term + min else min)
  | _ => e

/-- The entry of an address once some slots have been settled. -/
def State.settledEntry (full : Bool) (q : Nat) (done : Slot → Bool) (u : State) (a : Address) : AddrEntry :=
  match (u.entry a).holder with
  | none => u.entry a
  | some n =>
    match u.lease n with
    | none => u.entry a
    | some l => if done n then l.withheld full q u.params.quarantineMin (u.entry a) else u.entry a

/-- The slots that leave the Poll Ring as they are settled. -/
def State.leaving (done : Slot → Bool) (u : State) (n : Slot) : Bool := done n && isBound (u.lease n)

/-! ### The state part way through -/

/-- `t` is `u` but for its table, its Offer List, its Poll Ring, its responses, its Change Set and its cause flags. -/
def State.Near (u t : State) : Prop :=
  ∃ (table : LeaseTable) (offers : List Offer) (poll : Scheduler) (host : HostPort) (changes : Vector (BitVec 3) 64)
    (flags : Half),
    t = { u with
      table := table, enrol := { u.enrol with offers := offers }, poll := poll, host := host
      causes := { u.causes with changes := changes, flags := flags } }

theorem State.Near.trans {s t u : State} (h : s.Near t) (k : t.Near u) : s.Near u := by
  obtain ⟨_, _, _, _, _, _, rfl⟩ := h
  obtain ⟨_, _, _, _, _, _, rfl⟩ := k
  exact ⟨_, _, _, _, _, _, rfl⟩

/-- All that differs. -/
theorem State.Near.eq {u t : State} (h : u.Near t) : t = { u with
    table := { slots := t.table.slots, map := t.table.map }, enrol := { u.enrol with offers := t.enrol.offers }
    poll := t.poll, host := t.host
    causes := { u.causes with changes := t.causes.changes, flags := t.causes.flags } } := by
  obtain ⟨_, _, _, _, _, _, rfl⟩ := h
  rfl

theorem State.Near.params {u t : State} (h : u.Near t) : t.params = u.params := by
  obtain ⟨_, _, _, _, _, _, rfl⟩ := h
  rfl

/-- `t` is `u` with the slots of `done` settled, with `bytes` of responses written, and with `freed` bytes of their
reservations given back. -/
structure State.Settled (full : Bool) (q : Nat) (done : Slot → Bool) (bytes : List Byte) (freed : Nat) (u t : State) :
    Prop where
  lease   : ∀ n, t.lease n = if done n then (u.lease n).bind (Lease.settled q) else u.lease n
  entry   : ∀ a, t.entry a = u.settledEntry full q done a
  changes : ∀ n : Slot, t.causes.changes[n] = if done n then u.causes.changes[n] ||| 1 else u.causes.changes[n]
  flags   : t.causes.flags =
    (if allSlots.any done then u.causes.flags ||| 0x0004 else u.causes.flags) ||| (if bytes = [] then 0 else 0x0002)
  poll    : t.poll = { u.poll with
    ring := u.poll.ring.filter (fun m => !u.leaving done m.slot), pending := withdrawn (u.leaving done) u.poll.pending }
  host    : t.host = { u.host with responses := u.host.responses ++ bytes, reserved := u.host.reserved - freed }
  near    : u.Near t

/-- The slots that leave the ring when one more slot is settled. -/
theorem leaving_update {u : State} {n : Slot} (done : Slot → Bool) (h : isBound (u.lease n) = true) :
    u.leaving (Function.update done n true) = Function.update (u.leaving done) n true := by
  funext m
  by_cases e : m = n
  · subst e
    simp [State.leaving, h]
  · simp [State.leaving, e]

theorem leaving_update_unbound {u : State} {n : Slot} (done : Slot → Bool) (h : isBound (u.lease n) = false) :
    u.leaving (Function.update done n true) = u.leaving done := by
  funext m
  by_cases e : m = n
  · subst e
    simp [State.leaving, h]
  · simp [State.leaving, e]

theorem withdrawn_none (p : Option PendingPoll) : withdrawn (fun _ => false) p = p := by
  unfold withdrawn
  split <;> rfl

/-- A slot more has been settled, told from either end. -/
theorem update_or (done more : Slot → Bool) (n : Slot) :
    (fun m => Function.update done n true m || more m) = fun m => done m || (n == m || more m) := by
  funext m
  by_cases e : m = n
  · subst e
    simp
  · have apart : (n == m) = false := by simpa using Ne.symm e
    simp [e, apart]

theorem isOffered_iff {o : Option Lease} :
    isOffered o = true ↔ ∃ l prior, o = some l ∧ l.status = .offered prior := by
  cases o with
  | none => simp [isOffered]
  | some l => cases h : l.status <;> simp [isOffered, h]

/-- The entry completes the RELEASING lease of this slot. -/
def Release.ends (n : Slot) (e : Release) : Bool := match e.reason with | .retire m _ => m == n | _ => false

/-- The response that settles the entry's graceful RETIRE, with its release data when `withData` (R63, R70). -/
def Release.answer (min : Nat) (withData : Bool) (r : Result) (e : Release) : List Byte :=
  match e.reason with
  | .retire n tag =>
    responseFrame Request.retire.code tag r
      (if withData then
        [slotByte n, addressByte e.address, 0, 0] ++ (if min = 0 then [0, 0, 0] else 1 :: natBytes min) else [])
  | _ => []

theorem isLease_iff {e : Release} : e.isLease = true ↔ ∃ n tag, e.reason = .retire n tag := by
  cases h : e.reason <;> simp [Release.isLease, h]

/-- A sound entry that completes a lease names it by its address. -/
theorem entrySound_retire {s : State} {e : Release} {n : Slot} {tag : Byte} (hr : e.reason = .retire n tag)
    (h : s.entrySound e = true) :
    ∃ l term, s.lease n = some l ∧ l.status = .releasing term ∧ l.address = e.address := by
  cases hl : s.lease n with
  | none => simp [State.entrySound, hr, hl] at h
  | some l => cases hst : l.status <;> simp_all [State.entrySound]

/-- An entry that completes no lease is passed over. -/
theorem settleReleases_pass {e : Release} (h : ¬ e.isLease = true) (full withData : Bool) (r : Result) (es : List Release)
    (s : State) : s.settleReleases full withData r (e :: es) = s.settleReleases full withData r es := by
  cases hr : e.reason with
  | retire n tag => exact absurd (isLease_iff.mpr ⟨n, tag, hr⟩) h
  | _ => simp [State.settleReleases, hr]

/-- An entry that completes a lease ends it and is answered. -/
theorem settleReleases_retire {e : Release} {n : Slot} {tag : Byte} (hr : e.reason = .retire n tag) (full withData : Bool)
    (r : Result) (es : List Release) (s : State) :
    s.settleReleases full withData r (e :: es) =
      ((s.endReleasing n full).settle .retire tag r
        (if withData then (s.endReleasing n full).releaseData n e.address false 0 else [])).settleReleases
          full withData r es := by
  simp [State.settleReleases, hr]

theorem endReleasing_enrol (n : Slot) (full : Bool) (s : State) : (s.endReleasing n full).enrol = s.enrol := by
  unfold State.endReleasing
  split
  · split <;> rfl
  · rfl

/-- The settlement of the Release Queue leaves enrolment alone. -/
theorem settleReleases_enrol (full withData : Bool) (r : Result) (es : List Release) (s : State) :
    (s.settleReleases full withData r es).enrol = s.enrol := by
  induction es generalizing s with
  | nil => rfl
  | cons e es ih =>
    by_cases he : e.isLease = true
    · obtain ⟨n, tag, hr⟩ := isLease_iff.mp he
      rw [settleReleases_retire hr, ih, State.settle_enrol, endReleasing_enrol]
    · rw [settleReleases_pass he, ih]

namespace State.Settled

/-- Before any slot is taken nothing has changed. -/
theorem none (full : Bool) (q : Nat) (u : State) : u.Settled full q (fun _ => false) [] 0 u where
  lease _ := rfl
  entry a := by
    unfold State.settledEntry
    split
    · rfl
    · split <;> rfl
  changes _ := rfl
  flags := by simp
  poll := by
    have nobody : u.leaving (fun _ => false) = fun _ => false := rfl
    simp [nobody, withdrawn_none]
  host := by simp
  near := ⟨_, _, _, _, _, _, rfl⟩

variable {full : Bool} {q : Nat} {done : Slot → Bool} {bytes : List Byte} {freed : Nat} {u t v : State}
  {n : Slot} {l : Lease}

theorem params (h : u.Settled full q done bytes freed t) : t.params = u.params := h.near.params

/-- A slot not yet settled is settled: its lease, its address, its place in the ring and in the Change Set. -/
theorem take (h : u.Settled full q done bytes freed t) (hm : u.MapMatches) (hl : u.lease n = some l)
    (hd : done n = false) (hlease : ∀ m, v.lease m = if m = n then l.settled q else t.lease m)
    (hentry : ∀ a, v.entry a = if a = l.address then l.withheld full q u.params.quarantineMin (t.entry a) else t.entry a)
    (hpoll : v.poll = if isBound (some l) then (t.leaveRing n).poll else t.poll)
    (hcauses : v.causes = (t.handOver n .state).causes := by rfl) (hhost : v.host = t.host := by rfl)
    (hnear : t.Near v := by exact ⟨_, _, _, _, _, _, rfl⟩) :
    u.Settled full q (Function.update done n true) bytes freed v where
  lease m := by
    rw [hlease, h.lease]
    by_cases e : m = n
    · subst e
      simp [hl]
    · simp [e]
  entry a := by
    have held : (u.entry a).holder = some n ↔ a = l.address := by
      rw [← State.mapMatches_iff.mp hm n a, hl]
      simp [eq_comm]
    rw [hentry, h.entry]
    by_cases e : a = l.address
    · have hn := held.mpr e
      simp [State.settledEntry, hn, hl, hd, ← e]
    · have hn : (u.entry a).holder ≠ some n := fun hn => e (held.mp hn)
      rw [if_neg e]
      unfold State.settledEntry
      split
      · rfl
      · next m hmn =>
        have hmne : m ≠ n := fun hmn' => hn (hmn' ▸ hmn)
        simp [hmne]
  changes m := by
    rw [hcauses, State.handOver_changes, h.changes]
    by_cases e : m = n
    · subst e
      simp [hd, Reason.mask]
    · simp [e]
  flags := by
    rw [hcauses, State.handOver_flags, h.flags, any_update, BitVec.or_assoc, BitVec.or_assoc, BitVec.or_comm (0x0004)]
    rfl
  poll := by
    rw [hpoll]
    split
    · next hb =>
      rw [leaving_update done (hl ▸ hb), withdrawn_update, filter_update]
      simp only [State.leaveRing, h.poll]
    · next hb => rw [leaving_update_unbound done (hl ▸ Bool.eq_false_iff.mpr hb), h.poll]
  host := hhost.trans h.host
  near := h.near.trans hnear

/-- A slot settled before is settled once. -/
theorem again (h : u.Settled full q done bytes freed t) (hd : done n = true) :
    u.Settled full q (Function.update done n true) bytes freed t := by
  rwa [← hd, Function.update_eq_self]

/-- A slot settled before carries what the settlement made of its lease. -/
theorem lease_done (h : u.Settled full q done bytes freed t) (hl : u.lease n = some l) (hd : done n = true) :
    t.lease n = l.settled q := by
  rw [h.lease, hd, hl]
  rfl

theorem lease_left (h : u.Settled full q done bytes freed t) (hd : done n = false) : t.lease n = u.lease n := by
  rw [h.lease, hd]
  rfl

/-- The Offer List may be written. -/
theorem withOffers (h : u.Settled full q done bytes freed t) (offers : List Offer) :
    u.Settled full q done bytes freed { t with enrol := { t.enrol with offers := offers } } :=
  { h with near := h.near.trans ⟨_, _, _, _, _, _, rfl⟩ }

/-- A deferred response is written. -/
theorem settle (h : u.Settled full q done bytes freed t) (r : Request) (tag : Byte) (result : Result) (data : List Byte) :
    u.Settled full q done (bytes ++ responseFrame r.code tag result data) (freed + r.reservation)
      (t.settle r tag result data) where
  lease := h.lease
  entry := h.entry
  changes := h.changes
  flags := by
    have written : bytes ++ responseFrame r.code tag result data ≠ [] := by simp [responseFrame]
    have ready (b : Half) (hb : b = 0 ∨ b = 2) : b ||| 0x0002 = 0x0002 := by
      rcases hb with rfl | rfl <;> rfl
    show t.causes.flags ||| 0x0002 = _
    rw [h.flags, if_neg written, BitVec.or_assoc, ready]
    split
    · exact .inl rfl
    · exact .inr rfl
  poll := h.poll
  host := by
    rw [settle_eq_replied]
    simp only [h.host, List.append_assoc, Nat.sub_sub]
  near := h.near.trans ⟨_, _, _, _, _, _, rfl⟩

/-! ### The operations -/

/-- A lease becomes FREE and its address is withheld. -/
theorem vacate (h : u.Settled full q done bytes freed t) (hm : u.MapMatches) (hl : u.lease n = some l)
    (hd : done n = false) {k : Nat} (hs : l.settled q = Option.none)
    (hw : ∀ e, l.withheld full q u.params.quarantineMin e = quarantineEntry k) (hb : isBound (some l) = false) :
    u.Settled full q (Function.update done n true) bytes freed (t.vacate n l k) := by
  refine h.take hm hl hd (fun m => ?_) (fun a => ?_) ?_
  · rw [State.vacate_lease, hs]
  · rw [State.vacate_entry, hw]
  · rw [hb]
    rfl

/-- A lease takes another status and keeps its address, and its slot its place in the ring. -/
theorem changeStatus (h : u.Settled full q done bytes freed t) (hm : u.MapMatches) (hl : u.lease n = some l)
    (hd : done n = false) {st : LeaseStatus} (hs : l.settled q = some { l with status := st })
    (hw : ∀ e, l.withheld full q u.params.quarantineMin e = e) (hb : isBound (some l) = false) :
    u.Settled full q (Function.update done n true) bytes freed (t.changeStatus n l st) := by
  refine h.take hm hl hd (fun m => ?_) (fun a => ?_) ?_
  · rw [State.changeStatus_lease, hs]
  · rw [hw, ite_self]
    rfl
  · rw [hb]
    rfl

/-- A lease becomes LOST and leaves the ring (R69). -/
theorem loseLease (h : u.Settled full q done bytes freed t) (hm : u.MapMatches) (hl : u.lease n = some l)
    (hd : done n = false) (hs : l.settled q = some { l with status := .lost q })
    (hw : ∀ e, l.withheld full q u.params.quarantineMin e = e) (hb : isBound (some l) = true) :
    u.Settled full q (Function.update done n true) bytes freed (t.loseLease n l q) := by
  refine h.take hm hl hd (fun m => ?_) (fun a => ?_) ?_
  · rw [State.loseLease, State.leaveRing_lease, State.changeStatus_lease, hs]
  · rw [hw, ite_self]
    rfl
  · rw [if_pos hb]
    rfl

/-- A RELEASING lease ends, and its address is withheld (R63, R70). -/
theorem endReleasing (h : u.Settled full q done bytes freed t) (hm : u.MapMatches) (hl : u.lease n = some l)
    {term : Nat} (hst : l.status = .releasing term) :
    u.Settled full q (Function.update done n true) bytes freed (t.endReleasing n full) := by
  cases hd : done n with
  | true =>
    have ended : t.endReleasing n full = t := by simp [State.endReleasing, h.lease_done hl hd, Lease.settled, hst]
    rw [ended]
    exact h.again hd
  | false =>
    have vacated : t.endReleasing n full =
        t.vacate n l (if full then term + u.params.quarantineMin else u.params.quarantineMin) := by
      simp [State.endReleasing, h.lease_left hd, hl, hst, h.params]
    rw [vacated]
    exact h.vacate hm hl hd (by simp [Lease.settled, hst]) (by simp [Lease.withheld, hst]) (by simp [isBound, hst])

/-- An offer is abandoned by its prior (R63, R69). -/
theorem abandonOffer (h : u.Settled full q done bytes freed t) (hm : u.MapMatches) (hl : u.lease n = some l)
    {prior : Prior} (hst : l.status = .offered prior) :
    u.Settled full q (Function.update done n true) bytes freed (t.abandonOffer n q) := by
  cases hd : done n with
  | true =>
    have dropped : t.abandonOffer n q = t.dropOffer n := by
      cases prior <;> simp [State.abandonOffer, h.lease_done hl hd, Lease.settled, hst]
    rw [dropped]
    exact (h.again hd).withOffers _
  | false =>
    have hn : t.lease n = some l := (h.lease_left hd).trans hl
    have unbound : isBound (some l) = false := by simp [isBound, hst]
    simp only [State.abandonOffer, hn, hst]
    cases prior with
    | fresh =>
      exact (h.vacate hm hl hd (by simp [Lease.settled, hst]) (by simp [Lease.withheld, hst]) unbound).withOffers _
    | reserved =>
      exact (h.changeStatus hm hl hd (by simp [Lease.settled, hst]) (by simp [Lease.withheld, hst]) unbound).withOffers _
    | lost =>
      exact (h.changeStatus hm hl hd (by simp [Lease.settled, hst]) (by simp [Lease.withheld, hst]) unbound).withOffers _

/-- At a fault drop a slot is settled when its lease is BOUND, SUSPECT or OFFERED (R69). -/
theorem dropLease (h : u.Settled false u.params.quarantineMin done bytes freed t) (hm : u.MapMatches)
    (hd : done n = false) :
    u.Settled false u.params.quarantineMin
      (Function.update done n (isBound (u.lease n) || isOffered (u.lease n))) bytes freed (t.dropLease n) := by
  have kept : Function.update done n false = done := by rw [← hd, Function.update_eq_self]
  unfold State.dropLease
  rw [h.lease_left hd, h.params]
  cases hl : u.lease n with
  | none => simpa [isBound, isOffered, kept] using h
  | some l =>
    cases hst : l.status with
    | bound term miss =>
      simpa [isBound, isOffered, hst] using
        h.loseLease hm hl hd (by simp [Lease.settled, hst]) (by simp [Lease.withheld, hst]) (by simp [isBound, hst])
    | suspect term miss =>
      simpa [isBound, isOffered, hst] using
        h.loseLease hm hl hd (by simp [Lease.settled, hst]) (by simp [Lease.withheld, hst]) (by simp [isBound, hst])
    | offered prior => simpa [isBound, isOffered, hst] using h.abandonOffer hm hl hst
    | _ => simpa [isBound, isOffered, hst, kept] using h

/-- The slots of a list without repetition, one after another. -/
theorem foldl_dropLease (hm : u.MapMatches) (ns : List Slot) (hns : ns.Nodup)
    (h : u.Settled false u.params.quarantineMin done bytes freed t) (hd : ∀ n ∈ ns, done n = false) :
    u.Settled false u.params.quarantineMin
      (fun n => if n ∈ ns then isBound (u.lease n) || isOffered (u.lease n) else done n) bytes freed
      (ns.foldl State.dropLease t) := by
  induction ns generalizing done t with
  | nil => simpa using h
  | cons n ns ih =>
    obtain ⟨hn, hns⟩ := List.nodup_cons.mp hns
    have rest := ih hns (h.dropLease hm (hd n List.mem_cons_self)) fun m hmem => by
      have hne : m ≠ n := fun e => hn (e ▸ hmem)
      simpa [hne] using hd m (List.mem_cons_of_mem n hmem)
    have after : (fun m => if m ∈ ns then isBound (u.lease m) || isOffered (u.lease m)
        else Function.update done n (isBound (u.lease n) || isOffered (u.lease n)) m) =
        fun m => if m ∈ n :: ns then isBound (u.lease m) || isOffered (u.lease m) else done m := by
      funext m
      by_cases e : m = n
      · subst e
        simp
      · simp [e]
    rwa [after] at rest

/-- The offers of a list, one after another. -/
theorem foldl_abandonOffer (hm : u.MapMatches) (hq : u.offerQuarantine = q) (os : List Offer)
    (hos : ∀ o ∈ os, isOffered (u.lease o.slot) = true) (h : u.Settled full q done bytes freed t) :
    u.Settled full q (fun n => done n || os.any (fun o => o.slot == n)) bytes freed
      (os.foldl (fun v o => v.abandonOffer o.slot v.offerQuarantine) t) := by
  induction os generalizing done t with
  | nil => simpa using h
  | cons o os ih =>
    obtain ⟨l, prior, hl, hst⟩ := isOffered_iff.mp (hos o List.mem_cons_self)
    have quarantine : t.offerQuarantine = q := by rw [← hq]; simp only [State.offerQuarantine, h.params]
    have rest := ih (fun p hp => hos p (List.mem_cons_of_mem o hp)) (h.abandonOffer hm hl hst)
    rw [update_or done] at rest
    rwa [List.foldl_cons, quarantine]

/-- An address whose RELEASING lease has ended is withheld for QUARANTINE_MIN, where no frozen term counts. -/
theorem entry_ended (h : u.Settled false q done bytes freed t) (hm : u.MapMatches) (hl : u.lease n = some l)
    {term : Nat} (hst : l.status = .releasing term) (hd : done n = true) :
    t.entry l.address = quarantineEntry u.params.quarantineMin := by
  have held : (u.entry l.address).holder = some n := (State.mapMatches_iff.mp hm n l.address).mp (by simp [hl])
  simp [h.entry, State.settledEntry, held, hl, hd, Lease.withheld, hst]

/-- The entries of the Release Queue, one after another (R63, R70). -/
theorem settleReleases (hm : u.MapMatches) {withData : Bool} (hw : withData = true → full = false) (r : Result)
    (es : List Release) (hes : ∀ e ∈ es, u.entrySound e = true) (h : u.Settled full q done bytes freed t) :
    u.Settled full q (fun n => done n || es.any (Release.ends n))
      (bytes ++ (es.map (Release.answer u.params.quarantineMin withData r)).flatten)
      (freed + 11 * es.countP Release.isLease) (t.settleReleases full withData r es) := by
  induction es generalizing done bytes freed t with
  | nil => simpa [State.settleReleases] using h
  | cons e es ih =>
    have hes' : ∀ e ∈ es, u.entrySound e = true := fun e' he => hes e' (List.mem_cons_of_mem e he)
    by_cases he : e.isLease = true
    · obtain ⟨m, tag, hr⟩ := isLease_iff.mp he
      obtain ⟨l, term, hl, hst, ha⟩ := entrySound_retire hr (hes e List.mem_cons_self)
      have ended := h.endReleasing hm hl hst
      have data : (if withData then (t.endReleasing m full).releaseData m e.address false 0 else []) =
          if withData then [slotByte m, addressByte e.address, 0, 0] ++
            (if u.params.quarantineMin = 0 then [0, 0, 0] else 1 :: natBytes u.params.quarantineMin) else [] := by
        cases withData with
        | false => rfl
        | true =>
          obtain rfl := hw rfl
          have withheld := ended.entry_ended hm hl hst (Function.update_self ..)
          rw [ha] at withheld
          rw [if_pos rfl, if_pos rfl, State.releaseData, entryData_quarantine withheld]
          rfl
      have rest := ih hes' (ended.settle .retire tag r
        (if withData then (t.endReleasing m full).releaseData m e.address false 0 else []))
      have after : (fun n => Function.update done m true n || es.any (Release.ends n)) =
          fun n => done n || (e :: es).any (Release.ends n) := by
        rw [update_or done]
        simp only [List.any_cons, Release.ends, hr]
      have answered : bytes ++ responseFrame Request.retire.code tag r
            (if withData then (t.endReleasing m full).releaseData m e.address false 0 else []) ++
          (es.map (Release.answer u.params.quarantineMin withData r)).flatten =
          bytes ++ ((e :: es).map (Release.answer u.params.quarantineMin withData r)).flatten := by
        rw [data, List.map_cons, List.flatten_cons, List.append_assoc]
        simp only [Release.answer, hr]
      have counted : freed + Request.retire.reservation + 11 * es.countP Release.isLease =
          freed + 11 * (e :: es).countP Release.isLease := by
        rw [List.countP_cons_of_pos he]
        simp only [Request.reservation, Request.maxResponse]
        omega
      rw [after, answered, counted] at rest
      rwa [settleReleases_retire hr]
    · have rest := ih hes' h
      have silent : e.answer u.params.quarantineMin withData r = [] := by
        cases hr : e.reason with
        | retire m tag => exact absurd (isLease_iff.mpr ⟨m, tag, hr⟩) he
        | _ => simp [Release.answer, hr]
      have idle (n : Slot) : e.ends n = false := by
        cases hr : e.reason with
        | retire m tag => exact absurd (isLease_iff.mpr ⟨m, tag, hr⟩) he
        | _ => simp [Release.ends, hr]
      rw [settleReleases_pass he]
      simpa [silent, idle, he] using rest

/-- The Release Queue may be written, in both states. -/
theorem withReleases (h : u.Settled full q done bytes freed t) (rs : List Release) :
    (u.setReleases rs).Settled full q done bytes freed (t.setReleases rs) := by
  have near : (u.setReleases rs).Near (t.setReleases rs) := by
    obtain ⟨_, _, _, _, _, _, rfl⟩ := h.near
    exact ⟨_, _, _, _, _, _, rfl⟩
  exact { h with near }

end State.Settled

/-! ### The fault drop (3.5) -/

/-- The responses of the Release Queue are none exactly when it completes no lease. -/
theorem answers_eq_nil (min : Nat) (withData : Bool) (r : Result) (es : List Release) :
    (es.map (Release.answer min withData r)).flatten = [] ↔ es.any Release.isLease = false := by
  have silent (e : Release) : e.answer min withData r = [] ↔ e.isLease = false := by
    cases hr : e.reason <;> simp [Release.answer, Release.isLease, hr, responseFrame]
  simp [silent]

/-- The slots that a fault drop settles (R69, R70). -/
def State.fallen (s : State) (n : Slot) : Bool := isBound (s.lease n) || isOffered (s.lease n) || isReleasing (s.lease n)

section FaultDrop
variable {s : State}

/-- The Release Queue completes exactly the RELEASING leases. -/
theorem any_ends (h : s.ReleasesMatch) (n : Slot) : s.releases.any (Release.ends n) = isReleasing (s.lease n) := by
  obtain ⟨sound, queued⟩ := h
  rw [Bool.eq_iff_iff]
  refine ⟨fun hany => ?_, queued n⟩
  obtain ⟨e, he, hn⟩ := List.any_eq_true.mp hany
  cases hr : e.reason with
  | retire m tag =>
    obtain ⟨l, term, hl, hst, -⟩ := entrySound_retire hr (sound e he)
    have hmn : m = n := by simpa [Release.ends, hr] using hn
    subst hmn
    simp [isReleasing, hl, hst]
  | _ => simp [Release.ends, hr] at hn

/-- The walk of the slots and the Release Queue reach every lease that the drop settles. -/
theorem fallen_eq (h : s.ReleasesMatch) :
    (fun n => (if n ∈ allSlots then isBound (s.lease n) || isOffered (s.lease n) else false) ||
      s.releases.any (Release.ends n)) = s.fallen := by
  funext n
  have walked : n ∈ allSlots := List.mem_finRange n
  rw [if_pos walked, any_ends h]
  rfl

/-- The state when the slots and the Release Queue have been settled, before FAULT_DROP is set. -/
theorem settled_faultDrop (hm : s.MapMatches) (hr : s.ReleasesMatch) :
    ∃ t : State, s.takeFaultDrop = (t.raise .faultDrop).pollSettle ∧ t.enrol.offers = [] ∧
      (s.setReleases []).Settled false s.params.quarantineMin s.fallen
        (s.releases.map (Release.answer s.params.quarantineMin true .lineFault)).flatten
        (11 * s.releases.countP Release.isLease) t := by
  have walked := (State.Settled.none false s.params.quarantineMin s).foldl_dropLease hm allSlots
    (List.nodup_finRange 64) fun _ _ => rfl
  have settled := ((walked.withOffers []).withReleases []).settleReleases (u := s.setReleases []) (withData := true) hm
    (fun _ => rfl) .lineFault s.releases hr.1
  rw [fallen_eq hr, List.nil_append, Nat.zero_add] at settled
  refine ⟨_, rfl, ?_, settled⟩
  rw [settleReleases_enrol]
  rfl

/-- Every lease that the drop would change falls. -/
theorem lease_fallen (q : Nat) (n : Slot) :
    (if s.fallen n then (s.lease n).bind (Lease.settled q) else s.lease n) = (s.lease n).bind (Lease.settled q) := by
  unfold State.fallen
  cases s.lease n with
  | none => rfl
  | some l => cases hst : l.status <;> simp [isBound, isOffered, isReleasing, Lease.settled, hst]

/-- Every address that the drop would withhold belongs to a lease that falls. -/
theorem entry_fallen (a : Address) : s.settledEntry false s.params.quarantineMin s.fallen a =
    match (s.entry a).holder.bind s.lease with
    | none => s.entry a
    | some l =>
      match l.status with
      | .releasing _ => quarantineEntry s.params.quarantineMin
      | .offered .fresh => quarantineEntry s.params.quarantineMin
      | _ => s.entry a := by
  unfold State.settledEntry State.fallen
  cases (s.entry a).holder with
  | none => rfl
  | some n =>
    cases hl : s.lease n with
    | none => simp [hl]
    | some l =>
      cases hst : l.status with
      | offered prior => cases prior <;> simp [hl, isOffered, Lease.withheld, hst]
      | _ => simp [hl, isBound, isOffered, isReleasing, Lease.withheld, hst]

/-- Every slot of the ring falls and leaves it. -/
theorem leaving_fallen : s.leaving s.fallen = fun n => isBound (s.lease n) := by
  funext n
  cases h : isBound (s.lease n) <;> simp [State.leaving, State.fallen, h]

/-- No slot stays in the ring. -/
theorem ring_fallen (h : s.RingMatches) : s.poll.ring.filter (fun m => !s.leaving s.fallen m.slot) = [] := by
  rw [leaving_fallen]
  refine List.filter_eq_nil_iff.mpr fun m hm => ?_
  have bound : isBound (s.lease m.slot) = true := (h.2 m.slot).mp (List.mem_map_of_mem hm)
  simp [bound]

/-- The flags of a fault drop, in the order of their setting. -/
theorem flags_fallen (f : Half) (es : List Release) (min : Nat) (fell : Bool) :
    (if fell then f ||| 0x0004 else f) |||
        (if (es.map (Release.answer min true .lineFault)).flatten = [] then 0 else 0x0002) ||| Cause.faultDrop.mask =
      f ||| 0x2000 ||| (if fell then 0x0004 else 0) ||| (if es.any Release.isLease then 0x0002 else 0) := by
  have changes : (if fell then f ||| 0x0004 else f) = f ||| (if fell then 0x0004 else 0) := by
    cases fell <;> simp
  have ready : (if (es.map (Release.answer min true .lineFault)).flatten = [] then 0 else 0x0002 : Half) =
      if es.any Release.isLease then 0x0002 else 0 := by
    simp only [answers_eq_nil]
    cases es.any Release.isLease <;> rfl
  rw [changes, ready, show Cause.faultDrop.mask = 0x2000 by rfl]
  ac_rfl

end FaultDrop

/-- The response of one entry at a fault drop, byte by byte. -/
def Release.dropBytes (min : Nat) (e : Release) : List Byte :=
  match e.reason with
  | .retire n tag => [11, 0x15, tag, 0x0B, byteOf n.val, byteOf (addressNumber e.address), 0, 0] ++
    (if min = 0 then [0, 0, 0] else 1 :: natBytes min)
  | _ => []

theorem answer_lineFault (min : Nat) : Release.answer min true .lineFault = Release.dropBytes min := by
  funext e
  unfold Release.answer Release.dropBytes
  cases e.reason with
  | retire n tag => by_cases hmin : min = 0 <;> simp only [hmin, if_true, if_false] <;> rfl
  | _ => rfl

/-- Settles O39: each slot is settled once, by its status, and then each entry of the Release Queue. -/
theorem faultDropEndsUnheldLeases : Obligations.FaultDropEndsUnheldLeases := by
  refine fun s hr => ⟨fun hd => ?_, fun hd hm hring hrel => ?_⟩
  · rw [exec_faultDrop hr, dropEvent_notDue hd]
  · let u : State := { s with engine := { s.engine with dropDue := false } }
    obtain ⟨t, htaken, hoffers, h⟩ := settled_faultDrop (s := u) hm hrel
    refine ⟨t.table.slots, t.table.map, t.causes.changes, fun n => ?_, fun a => ?_, h.changes, ?_⟩
    · exact (h.lease n).trans (lease_fallen (s := u) _ n)
    · exact (h.entry a).trans (entry_fallen (s := u) a)
    · have host : t.host = { s.host with
          responses := s.host.responses ++ (s.releases.map (Release.dropBytes s.params.quarantineMin)).flatten
          reserved := s.host.reserved - 11 * s.releases.countP Release.isLease } := by
        rw [← answer_lineFault]
        exact h.host
      have poll : t.poll = { s.poll with
          ring := [], pending := withdrawn (fun n => isBound (s.lease n)) s.poll.pending } := by
        rw [← leaving_fallen, ← ring_fallen hring]
        exact h.poll
      have flags : t.causes.flags ||| Cause.faultDrop.mask =
          s.causes.flags ||| 0x2000 ||| (if allSlots.any s.fallen then 0x0004 else 0) |||
            (if s.releases.any Release.isLease then 0x0002 else 0) :=
        (congrArg (· ||| Cause.faultDrop.mask) h.flags).trans (flags_fallen s.causes.flags _ _ _)
      rw [exec_faultDrop hr, dropEvent_due hd, htaken]
      refine congrArg (fun v => Host.Outcome.next (State.pollSettle v))
        ((congrArg (State.raise .faultDrop) h.near.eq).trans ?_)
      simp only [State.raise, hoffers, poll, host, flags]
      rfl

end Sys2Proof.Machine

/-! ## RESET_TRUNK (3.4, Table 3-7) -/
namespace Sys2Proof.Machine
set_option Elab.async false

/-! ### A walk and the host's port

A round begun in a change in which responses have been written walks as it would without them. -/

/-- The host's port is written, and flags are set. -/
def State.withPort (port : HostPort) (bits : Half) (s : State) : State :=
  { s with host := port, causes := { s.causes with flags := s.causes.flags ||| bits } }

section Port
variable (port : HostPort) (bits : Half)

theorem visit_withPort (ms : List RingMember) (s : State) :
    (s.withPort port bits).visit ms = ((s.visit ms).1.withPort port bits, (s.visit ms).2) := by
  induction ms generalizing s with
  | nil => rfl
  | cons m ms ih =>
    have same : (s.withPort port bits).lease m.slot = s.lease m.slot := rfl
    unfold State.visit
    by_cases hv : m.visited = true
    · rw [if_pos hv, if_pos hv, ih]
    · rw [if_neg hv, if_neg hv, same]
      cases hl : s.lease m.slot with
      | none => exact ih (s.markVisited m.slot)
      | some l =>
        by_cases hc : l.cadenceCount ≤ 1
        · simp only [if_pos hc]
          rfl
        · simp only [if_neg hc]
          exact ih ((s.setCadenceCount m.slot l (l.cadenceCount - 1)).markVisited m.slot)

theorem countRound_withPort (s : State) : (s.withPort port bits).countRound = s.countRound.withPort port bits := by
  simp only [State.countRound, State.withPort, State.raise, BitVec.or_assoc, BitVec.or_comm bits]

theorem walk_withPort (fuel : Nat) (s : State) :
    (s.withPort port bits).walk fuel = (s.walk fuel).withPort port bits := by
  have ring (s : State) : (s.withPort port bits).poll.ring = s.poll.ring := rfl
  induction fuel generalizing s with
  | zero =>
    unfold State.walk
    rw [ring, visit_withPort]
    cases s.visit s.poll.ring with
    | mk t named =>
      cases named with
      | true => rfl
      | false => exact congrArg (State.setScheduler .wait) (countRound_withPort port bits t)
  | succ fuel ih =>
    unfold State.walk
    rw [ring, visit_withPort]
    cases s.visit s.poll.ring with
    | mk t named =>
      cases named with
      | true => rfl
      | false =>
        by_cases more : t.poll.mode = .continuous ∧ t.poll.ring ≠ []
        · simp only [if_pos more]
          refine (if_pos more).trans ?_
          rw [countRound_withPort]
          exact ih (t.countRound.clearMarks.setScheduler .round)
        · simp only [if_neg more]
          exact (if_neg more).trans (congrArg (State.setScheduler .wait) (countRound_withPort port bits t))

theorem beginRound_withPort (s : State) :
    (s.withPort port bits).beginRound = s.beginRound.withPort port bits :=
  walk_withPort port bits _ (s.clearMarks.setScheduler .round)

end Port

/-! ### OFF with its response -/

/-- The response of a DISABLE that was pending when OFF is entered (R61). -/
def disableBytes : Option Byte → List Byte
  | some tag => [5, 0x05, tag, 0x00, 0]
  | none => []

/-- OFF is entered from any state: the transaction is dropped, a pending DISABLE is answered, then the request itself. -/
theorem enterOff_answer (t : State) (port : HostPort) {bits : Half} (hbits : bits = 0 ∨ bits = 2) (tag : Byte) :
    State.answer .trunkControl tag .ok [EngineState.off.code]
        (State.enterOff { t.withPort port bits with engine := { t.engine with txn := none, burst := 0 } }) =
      { t with
        engine := { t.engine with
          state := .off, txn := none, burst := 0, pendingDisable := none, clock := 0, guardFrom := 0
          reception := Reception.reset }
        causes := { t.causes with flags := t.causes.flags ||| 0x8002 }
        host := { port with
          responses := port.responses ++ disableBytes t.engine.pendingDisable ++ [5, 0x05, tag, 0x00, 0]
          reserved := port.reserved - (if t.engine.pendingDisable.isSome then 5 else 0) } } := by
  have absorbed : t.causes.flags ||| bits ||| 0x8002 = t.causes.flags ||| 0x8002 := by
    rw [BitVec.or_assoc]
    rcases hbits with rfl | rfl <;> rfl
  have ready : t.causes.flags ||| bits ||| 0x8002 ||| 0x0002 = t.causes.flags ||| bits ||| 0x8002 := by
    rw [BitVec.or_assoc]
    rfl
  let v : State := { t.withPort port bits with engine := { t.engine with txn := none, burst := 0 } }
  cases hp : t.engine.pendingDisable with
  | none =>
    have hv : v.engine.pendingDisable = none := hp
    rw [enterOff_silent (s := v) hv, ← absorbed, ← flags_off_ready]
    simp [v, State.answer, State.respond, State.append, State.raise, State.inState, State.withPort, disableBytes, hp]
    rfl
  | some disableTag =>
    have hv : v.engine.pendingDisable = some disableTag := hp
    rw [enterOff_answers (s := v) hv, answer_eq_replied, ← absorbed, ← ready]
    rfl

namespace State.Settled
variable {full : Bool} {q : Nat} {done : Slot → Bool} {bytes : List Byte} {freed : Nat} {u t : State}

/-- The relays of a list are cancelled, one after another (R63). -/
theorem cancelRelays (es : List Relay) (h : u.Settled full q done bytes freed t) :
    u.Settled full q done (bytes ++ (es.map (fun e => [4, 0x28, e.tag, 0x0C])).flatten) (freed + 18 * es.length)
      (t.cancelRelays es) := by
  induction es generalizing bytes freed t with
  | nil => simpa [State.cancelRelays] using h
  | cons e es ih =>
    have rest := ih (h.settle .relay e.tag .cancelled [])
    have counted : freed + Request.relay.reservation + 18 * es.length = freed + 18 * (e :: es).length := by
      simp only [Request.reservation, Request.maxResponse, List.length_cons]
      omega
    rw [counted, List.append_assoc] at rest
    exact rest

end State.Settled

/-! ### The request -/

/-- The poll scheduler is stopped, and in CONTINUOUS a round begins when the ring has members. -/
theorem settlePolling_eq (s : State) : s.settlePolling =
    let t : State := { s with poll := { s.poll with
      ring := s.poll.ring.map (fun m => { m with visited := false })
      pending := none, detached := none
      state := if s.poll.mode = .off then .off else .wait } }
    if s.poll.mode = .continuous ∧ s.poll.ring ≠ [] then t.beginRound else t := by
  have members : s.clearMarks.poll.ring ≠ [] ↔ s.poll.ring ≠ [] := by simp [State.clearMarks]
  by_cases h : s.poll.mode = .continuous ∧ s.poll.ring ≠ []
  · rw [if_pos h]
    exact if_pos ⟨h.1, members.mpr h.2⟩
  · rw [if_neg h]
    exact if_neg fun h' => h ⟨h'.1, members.mp h'.2⟩

/-- The slots that RESET_TRUNK settles (R63). -/
def State.unsettled (s : State) (n : Slot) : Bool := isReleasing (s.lease n) || isOffered (s.lease n)

section Reset
variable {s : State}

/-- The Release Queue and the Offer List reach every lease that RESET_TRUNK settles. -/
theorem unsettled_eq (ho : s.OffersMatch) (hr : s.ReleasesMatch) :
    (fun n => (false || s.releases.any (Release.ends n)) || s.enrol.offers.any (fun o => o.slot == n)) = s.unsettled := by
  funext n
  have offered : s.enrol.offers.any (fun o => o.slot == n) = isOffered (s.lease n) := by
    rw [Bool.eq_iff_iff, ← ho.2.1 n]
    simp [Enrolment.slots]
  rw [any_ends hr, offered, Bool.false_or]
  rfl

/-- A lease in neither queue is not touched. -/
theorem lease_unsettled (q : Nat) (n : Slot) :
    (if s.unsettled n then (s.lease n).bind (Lease.settled q) else s.lease n) = (s.lease n).bind (fun l =>
      match l.status with
      | .releasing _ => none
      | .offered .fresh => none
      | .offered .reserved => some { l with status := .reserved }
      | .offered .lost => some { l with status := .lost q }
      | _ => some l) := by
  unfold State.unsettled
  cases s.lease n with
  | none => rfl
  | some l =>
    cases hst : l.status with
    | offered prior => cases prior <;> simp [isReleasing, isOffered, Lease.settled, hst]
    | _ => simp [isOffered, isReleasing, Lease.settled, hst]

theorem entry_unsettled (q : Nat) (a : Address) : s.settledEntry true q s.unsettled a =
    match (s.entry a).holder.bind s.lease with
    | none => s.entry a
    | some l =>
      match l.status with
      | .releasing term => quarantineEntry (term + s.params.quarantineMin)
      | .offered .fresh => quarantineEntry q
      | _ => s.entry a := by
  unfold State.settledEntry State.unsettled
  cases (s.entry a).holder with
  | none => rfl
  | some n =>
    cases hl : s.lease n with
    | none => simp [hl]
    | some l =>
      cases hst : l.status with
      | offered prior => cases prior <;> simp [hl, isOffered, Lease.withheld, hst]
      | _ => simp [hl, isOffered, isReleasing, Lease.withheld, hst]

/-- No slot leaves the ring: none that is settled is BOUND or SUSPECT. -/
theorem leaving_unsettled : s.leaving s.unsettled = fun _ => false := by
  funext n
  cases hl : s.lease n with
  | none => simp [State.leaving, isBound, hl]
  | some l => cases hst : l.status <;> simp [State.leaving, State.unsettled, isBound, isOffered, isReleasing, hl, hst]

/-- The response of an entry of the Release Queue, byte by byte. -/
def Release.cancelBytes (e : Release) : List Byte :=
  match e.reason with
  | .retire _ tag => [4, 0x15, tag, 0x0C]
  | _ => []

theorem answer_cancelled (min : Nat) : Release.answer min false .cancelled = Release.cancelBytes := by
  funext e
  unfold Release.answer Release.cancelBytes
  cases e.reason <;> rfl

/-- The responses of the two queues, in the order of their writing (R64). -/
def State.cancelBytes (s : State) : List Byte :=
  (s.relays.map (fun e => [4, 0x28, e.tag, 0x0C])).flatten ++ (s.releases.map Release.cancelBytes).flatten

/-- The state when the queues and the Offer List have been settled. -/
def State.emptied (s : State) : State :=
  s.enrol.offers.foldl (fun u o => u.abandonOffer o.slot u.offerQuarantine)
    ((((s.setRelays []).cancelRelays s.relays).setReleases []).settleReleases true false .cancelled s.releases)

theorem settled_emptied (hm : s.MapMatches) (ho : s.OffersMatch) (hr : s.ReleasesMatch) :
    ((s.setRelays []).setReleases []).Settled true s.offerQuarantine s.unsettled s.cancelBytes
      (18 * s.relays.length + 11 * s.releases.countP Release.isLease) s.emptied := by
  have cancelled := ((State.Settled.none true s.offerQuarantine (s.setRelays [])).cancelRelays s.relays).withReleases []
  have settled := cancelled.settleReleases (u := (s.setRelays []).setReleases []) (withData := false) hm
    (fun h => absurd h Bool.false_ne_true) .cancelled s.releases hr.1
  have offers := settled.foldl_abandonOffer (u := (s.setRelays []).setReleases []) hm rfl s.enrol.offers fun o hmem =>
    (ho.2.1 o.slot).mp (List.mem_map_of_mem hmem)
  rw [unsettled_eq ho hr, answer_cancelled, List.nil_append, Nat.zero_add] at offers
  exact offers

/-- What RESET_TRUNK leaves for the Engine, with this Lease Table and Change Set: the queues, the census and the poll
scheduler of Table 3-7. -/
def State.cleared (slots : Vector (Option Lease) 64) (map : Vector AddrEntry 126) (changes : Vector (BitVec 3) 64)
    (s : State) : State :=
  { s with
    table := { slots := slots, map := map }
    enrol := { s.enrol with offers := [], solicitDue := false }
    census := { s.census with state := .idle, stepPending := false, pending := none, detached := none }
    releases := [], relays := []
    poll := { s.poll with
      ring := s.poll.ring.map (fun m => { m with visited := false })
      pending := none, detached := none
      state := if s.poll.mode = .off then .off else .wait }
    causes := { s.causes with
      changes := changes
      flags := if allSlots.any s.unsettled then s.causes.flags ||| 0x0004 else s.causes.flags } }

/-- A round begins in CONTINUOUS with members (R125). -/
def State.restarted (s t : State) : State :=
  if s.poll.mode = .continuous ∧ s.poll.ring ≠ [] then t.beginRound else t

theorem restarted_withPort (t : State) (port : HostPort) (bits : Half) :
    s.restarted (t.withPort port bits) = (s.restarted t).withPort port bits := by
  unfold State.restarted
  split
  · exact beginRound_withPort port bits t
  · rfl

theorem restarted_engine (t : State) : (s.restarted t).engine = t.engine := by
  unfold State.restarted
  split
  · obtain ⟨-, -, -, -, -, -, -, engine, -⟩ := (State.WalksTo.beginRound t).frame
    exact engine
  · rfl

/-- Enrolment, the census and the poll scheduler, stopped. -/
def State.stopped (t : State) : State :=
  { t with
    enrol := { t.enrol with offers := [], solicitDue := false }
    census := { t.census with state := .idle, stepPending := false, pending := none, detached := none }
    poll := { t.poll with
      ring := t.poll.ring.map (fun m => { m with visited := false })
      pending := none, detached := none
      state := if t.poll.mode = .off then .off else .wait } }

theorem resetTrunk_eq (s : State) : s.resetTrunk =
    let t := s.emptied.restarted s.emptied.stopped
    State.enterOff { t with engine := { t.engine with txn := none, burst := 0 } } :=
  congrArg (fun t : State => State.enterOff { t with engine := { t.engine with txn := none, burst := 0 } })
    (settlePolling_eq
      (State.settleCensus { s.emptied with enrol := { s.emptied.enrol with offers := [], solicitDue := false } }))

/-- RESPONSE_READY as the responses of the two queues set it. -/
def State.cancelFlags (s : State) : Half := if s.cancelBytes = [] then 0 else 0x0002

theorem cancelFlags_cases (s : State) : s.cancelFlags = 0 ∨ s.cancelFlags = 2 := by
  unfold State.cancelFlags
  split
  · exact .inl rfl
  · exact .inr rfl

/-- All of RESET_TRUNK but the Engine, with the responses told apart from the rest. -/
theorem restarted_stopped (hm : s.MapMatches) (ho : s.OffersMatch) (hr : s.ReleasesMatch) :
    s.emptied.restarted s.emptied.stopped =
      (s.restarted (s.cleared s.emptied.table.slots s.emptied.table.map s.emptied.causes.changes)).withPort s.emptied.host
        s.cancelFlags := by
  have h := settled_emptied hm ho hr
  have poll : s.emptied.poll = s.poll := by
    have quiet : ((s.setRelays []).setReleases []).leaving s.unsettled = fun _ => false := leaving_unsettled
    rw [h.poll, quiet, withdrawn_none]
    simp
  have parts := h.near.eq
  rw [poll, h.flags] at parts
  rw [← restarted_withPort]
  unfold State.restarted
  rw [poll, congrArg State.stopped parts]
  rfl

end Reset

/-- Settles O21: the two queues and the Offer List are settled slot by slot, then the census, the poll scheduler and the
Engine. -/
theorem resetTrunkSettlesAllTrunkWork : Obligations.ResetTrunkSettlesAllTrunkWork := by
  intro s k tag rest htake hm ho hr
  let v := s.popped rest
  have h := settled_emptied (s := v) hm ho hr
  refine ⟨v.emptied.table.slots, v.emptied.table.map, v.emptied.causes.changes, fun n => ?_, fun a => ?_, h.changes, ?_⟩
  · exact (h.lease n).trans (lease_unsettled (s := s) _ n)
  · exact (h.entry a).trans (entry_unsettled (s := s) _ a)
  · have host : v.emptied.host = { v.host with
        responses := s.host.responses ++ (s.relays.map (fun e => [4, 0x28, e.tag, 0x0C])).flatten ++
          (s.releases.map Release.cancelBytes).flatten
        reserved := s.host.reserved - (18 * s.relays.length + 11 * s.releases.countP Release.isLease) } := by
      rw [List.append_assoc]
      exact h.host
    have engine : (v.restarted (v.cleared v.emptied.table.slots v.emptied.table.map v.emptied.causes.changes)).engine =
        s.engine := restarted_engine _
    rw [exec_resetTrunk htake, resetTrunkRequest, resetTrunk_eq, restarted_stopped (s := v) hm ho hr]
    refine (congrArg Host.Outcome.next (enterOff_answer _ _ (cancelFlags_cases v) tag)).trans ?_
    rw [engine, host]
    rw [Nat.sub_sub]
    rfl

end Sys2Proof.Machine

/-! ## The Offer List against the leases (4.5)

Only a JOIN makes a lease OFFERED. Everything else leaves the offers standing or withdraws some of them, each from its lease
and from the Offer List in one change, and one relation says so. -/
namespace Sys2Proof.Machine
set_option Elab.async false

/-- From `s` to `t` the offers outside `stays` are withdrawn, at their leases and in the Offer List alike, and no other changes;
a SOLICIT comes in flight over an empty list alone. -/
structure State.Withdraws (s t : State) : Prop where
  offers : ∃ stays : Slot → Bool, t.enrol.slots = s.enrol.slots.filter stays ∧
    ∀ n, isOffered (t.lease n) = (isOffered (s.lease n) && stays n)
  listen : t.inListen = true → s.inListen = true ∨ t.enrol.slots = []

/-- A listen depends on the transaction in flight alone. -/
theorem inListen_congr {s t : State} (h : t.engine.txn = s.engine.txn) : t.inListen = s.inListen := by
  simp only [State.inListen, h]

/-- The entry of a slot leaves the Offer List. -/
theorem dropOffer_slots (n : Slot) (s : State) :
    (s.dropOffer n).enrol.slots = s.enrol.slots.filter (fun m => decide (m ≠ n)) := by
  simp [State.dropOffer, Enrolment.slots, List.filter_map, Function.comp_def]

/-- What leaves every lease OFFERED or not, as it was, leaves the slot so. -/
theorem isOffered_map {f : Lease → Lease} (hf : ∀ l, isOffered (some (f l)) = isOffered (some l)) (o : Option Lease) :
    isOffered (o.map f) = isOffered o := by
  cases o with
  | none => rfl
  | some l => exact hf l

/-- A lease in a state other than OFFERED. -/
theorem lease_unoffered {s : State} {n : Slot} {l : Lease} {st : LeaseStatus} (hl : s.lease n = some l) (hst : l.status = st)
    (h : isOffered (some { l with status := st }) = false := by rfl) : isOffered (s.lease n) = false := by
  subst hst
  rw [hl]
  exact h

/-- A lease that is OFFERED with none of the three priors is not OFFERED. -/
theorem isOffered_eq_false {l : Lease} (hf : l.status ≠ .offered .fresh) (hr : l.status ≠ .offered .reserved)
    (hl : l.status ≠ .offered .lost) : isOffered (some l) = false := by
  cases hst : l.status with
  | offered prior =>
    cases prior with
    | fresh => exact absurd hst hf
    | reserved => exact absurd hst hr
    | lost => exact absurd hst hl
  | _ => simp [isOffered, hst]

namespace State.Withdraws

/-- No offer is withdrawn. -/
theorem spare {s t : State} (hl : ∀ n, isOffered (t.lease n) = isOffered (s.lease n)) (hs : t.enrol.slots = s.enrol.slots)
    (hi : t.inListen = true → s.inListen = true ∨ t.enrol.slots = []) : s.Withdraws t :=
  ⟨⟨fun _ => true, by simp [hs], by simp [hl]⟩, hi⟩

/-- A change of other blocks alone. -/
theorem same {s t : State} (h : t.table.slots = s.table.slots ∧ t.enrol.slots = s.enrol.slots ∧
    t.engine.txn = s.engine.txn := by exact ⟨rfl, rfl, rfl⟩) : s.Withdraws t := by
  obtain ⟨hslots, hs, htxn⟩ := h
  exact spare (fun n => by simp only [State.lease, hslots]) hs (fun hi => .inl (inListen_congr htxn ▸ hi))

theorem refl (s : State) : s.Withdraws s := same

theorem trans {s t u : State} (h : s.Withdraws t) (k : t.Withdraws u) : s.Withdraws u := by
  obtain ⟨⟨p, hs, hl⟩, hi⟩ := h
  obtain ⟨⟨q, ks, kl⟩, ki⟩ := k
  refine ⟨⟨fun n => p n && q n, ?_, fun n => ?_⟩, fun hu => ?_⟩
  · simp [ks, hs, List.filter_filter, Bool.and_comm]
  · rw [kl, hl, Bool.and_assoc]
  · rcases ki hu with ht | hnil
    · rcases hi ht with h | hnil
      · exact .inl h
      · exact .inr (by simp [ks, hnil])
    · exact .inr hnil

/-- Other blocks may change after. -/
theorem andSame {s t u : State} (h : s.Withdraws t) (k : u.table.slots = t.table.slots ∧ u.enrol.slots = t.enrol.slots ∧
    u.engine.txn = t.engine.txn := by exact ⟨rfl, rfl, rfl⟩) : s.Withdraws u := h.trans (same k)

/-- Other blocks may change before. -/
theorem afterSame {s t u : State} (h : t.Withdraws u) (k : t.table.slots = s.table.slots ∧
    t.enrol.slots = s.enrol.slots ∧ t.engine.txn = s.engine.txn := by exact ⟨rfl, rfl, rfl⟩) : s.Withdraws u :=
  (same k).trans h

/-- A cause flag may be set after. -/
theorem andRaise {s t : State} {c : Cause} (h : s.Withdraws t) : s.Withdraws (t.raise c) := h.andSame

/-- One of two changes, by a condition. -/
theorem cond {s t u : State} {c : Prop} [Decidable c] (h : s.Withdraws t) (k : s.Withdraws u) :
    s.Withdraws (if c then t else u) := by
  split
  · exact h
  · exact k

theorem foldl {α : Type} {f : State → α → State} (h : ∀ (s : State) (a : α), s.Withdraws (f s a)) (xs : List α)
    (s : State) : s.Withdraws (xs.foldl f s) := by
  induction xs generalizing s with
  | nil => exact refl s
  | cons x xs ih => exact (h s x).trans (ih _)

/-- What is not OFFERED does not become so. -/
theorem unoffered {s t : State} (h : s.Withdraws t) {n : Slot} (hn : isOffered (s.lease n) = false) :
    isOffered (t.lease n) = false := by
  obtain ⟨⟨stays, -, hl⟩, -⟩ := h
  rw [hl, hn, Bool.false_and]

/-- What each operation of a fold withdraws stays withdrawn. -/
theorem foldl_unoffered {α : Type} {f : State → α → State} {slot : α → Slot}
    (h : ∀ (s : State) (a : α), s.Withdraws (f s a))
    (hf : ∀ (s : State) (a : α), isOffered ((f s a).lease (slot a)) = false) (xs : List α) (s : State) :
    ∀ a ∈ xs, isOffered ((xs.foldl f s).lease (slot a)) = false := by
  induction xs generalizing s with
  | nil => exact nofun
  | cons x xs ih =>
    intro a ha
    rcases List.mem_cons.mp ha with rfl | ha
    · exact (foldl h xs _).unoffered (hf s a)
    · exact ih _ a ha

/-- All offers are withdrawn. -/
theorem all {s t : State} (hl : ∀ n, isOffered (t.lease n) = false) (hs : t.enrol.slots = []) : s.Withdraws t :=
  ⟨⟨fun _ => false, by simp [hs], by simp [hl]⟩, fun _ => .inr hs⟩

/-- One slot is written, and is OFFERED after if and only if it was before. -/
theorem write {s t : State} {n : Slot} {o : Option Lease} (hl : ∀ m, t.lease m = if m = n then o else s.lease m)
    (ho : isOffered o = isOffered (s.lease n))
    (h : t.enrol.slots = s.enrol.slots ∧ t.engine.txn = s.engine.txn := by exact ⟨rfl, rfl⟩) : s.Withdraws t := by
  obtain ⟨hs, htxn⟩ := h
  refine spare (fun m => ?_) hs fun hi => .inl (inListen_congr htxn ▸ hi)
  rw [hl]
  split
  · next e => rw [ho, e]
  · rfl

/-- One slot is written that is OFFERED neither before nor after. -/
theorem aside {s t : State} {n : Slot} {o : Option Lease} (hn : isOffered (s.lease n) = false)
    (hl : ∀ m, t.lease m = if m = n then o else s.lease m) (ho : isOffered o = false := by rfl)
    (h : t.enrol.slots = s.enrol.slots ∧ t.engine.txn = s.engine.txn := by exact ⟨rfl, rfl⟩) : s.Withdraws t :=
  write hl (ho.trans hn.symm) h

/-- One slot is written that is not OFFERED after, and its entry leaves the Offer List. -/
theorem drop {s t : State} {n : Slot} {o : Option Lease} (hl : ∀ m, t.lease m = if m = n then o else s.lease m)
    (ho : isOffered o = false := by rfl)
    (h : t.enrol.slots = s.enrol.slots ∧ t.engine.txn = s.engine.txn := by exact ⟨rfl, rfl⟩) :
    s.Withdraws (t.dropOffer n) := by
  obtain ⟨hs, htxn⟩ := h
  have htxn : (t.dropOffer n).engine.txn = s.engine.txn := htxn
  refine ⟨⟨fun m => decide (m ≠ n), by rw [dropOffer_slots, hs], fun m => ?_⟩,
    fun hi => .inl (inListen_congr htxn ▸ hi)⟩
  rw [State.dropOffer_lease, hl]
  split
  · next e => simp [e, ho]
  · next e => simp [e]

/-! ### The Poll Ring and its walk -/

/-- A walk writes cadence counts alone. -/
theorem ofWalk {s t : State} (h : s.WalksTo t) : s.Withdraws t := by
  obtain ⟨-, -, -, henrol, -, -, -, hengine, -⟩ := h.frame
  obtain ⟨counts, hl⟩ := h.lease
  have hi := inListen_congr (congrArg Engine.txn hengine)
  refine spare (fun n => ?_) (congrArg Enrolment.slots henrol) fun h => .inl (hi ▸ h)
  rw [hl]
  exact isOffered_map (f := fun l => { l with cadenceCount := counts n }) (fun _ => rfl) _

theorem pollSettle (s : State) : s.Withdraws s.pollSettle := ofWalk (.pollSettle s)

theorem joinRing (n : Slot) (s : State) : s.Withdraws (s.joinRing n) := (ofWalk (.joinRing n s)).afterSame

/-! ### Losing a lease, abandoning an offer, the quality window -/

theorem loseLease {n : Slot} {s : State} (h : isOffered (s.lease n) = false) (l : Lease) (q : Nat) :
    s.Withdraws (s.loseLease n l q) := (aside h (State.changeStatus_lease n l (.lost q) s)).andSame

theorem abandonOffer (n : Slot) (q : Nat) (s : State) : s.Withdraws (s.abandonOffer n q) := by
  have absent (h : isOffered (s.lease n) = false) : s.Withdraws (s.dropOffer n) :=
    drop (o := s.lease n) (fun m => by split <;> simp [*]) h
  unfold State.abandonOffer
  split
  · next hl => exact absent (by rw [hl]; rfl)
  · next l hl =>
    split
    · exact drop (State.vacate_lease n l q s)
    · exact drop (State.changeStatus_lease n l .reserved s)
    · exact drop (State.changeStatus_lease n l (.lost q) s)
    · next hf hr hlost => exact absent (hl ▸ isOffered_eq_false hf hr hlost)

/-- An abandoned offer stands no more. -/
theorem abandonOffer_lease (n : Slot) (q : Nat) (s : State) : isOffered ((s.abandonOffer n q).lease n) = false := by
  unfold State.abandonOffer
  split
  · next hl => simp [hl, isOffered]
  · next l hl =>
    split
    · simp [State.vacate_lease, isOffered]
    · simp [State.changeStatus_lease, isOffered]
    · simp [State.changeStatus_lease, isOffered]
    · next hf hr hlost => exact hl ▸ isOffered_eq_false hf hr hlost

theorem countAttempt (n : Slot) (x : Identity) (a : TrunkAddress) (bad : Bool) (s : State) :
    s.Withdraws (s.countAttempt n x a bad) := by
  unfold State.countAttempt
  split
  · exact refl s
  · next l hm =>
    have counted (k : Lease) (hk : k.status = l.status) : s.Withdraws (s.putLease n (some k)) :=
      write (State.putLease_lease n _ s) (by rw [matched_eq_some hm]; simp only [isOffered, hk])
    refine cond (cond (andRaise (cond ?_ (andSame (t := State.putLease n _ s) ?_)))
      (cond ?_ (andSame (t := State.putLease n _ s) ?_))) ?_
    all_goals exact counted _ rfl

/-! ### Polling -/

/-- A poll's effect writes its lease, which is BOUND or SUSPECT before and not OFFERED after. -/
theorem renew {n : Slot} {s : State} (h : isOffered (s.lease n) = false) (l : Lease) (wasSuspect : Bool) (w : Half) :
    s.Withdraws (s.renew n l wasSuspect w) := by
  have stored : s.Withdraws (s.storeStatus n { l with status := .bound (s.params.leaseTerm * 4) 0 } w) :=
    cond (aside h (State.putLease_lease n (some _) s)) (aside h (State.putLease_lease n (some _) s))
  exact cond stored.andSame stored

theorem countMiss {n : Slot} {s : State} (h : isOffered (s.lease n) = false) (l : Lease) (term miss : Nat)
    (wasSuspect : Bool) : s.Withdraws (s.countMiss n l term miss wasSuspect) :=
  cond (loseLease h l _) (cond (aside h (State.putLease_lease n _ s))
    (cond (aside h (State.changeStatus_lease n l _ s)) (aside h (State.putLease_lease n _ s))))

theorem pollEffect (t : Txn) (o : AttemptOutcome) (s : State) : s.Withdraws (s.pollEffect t o) := by
  unfold State.pollEffect
  split
  · next n x _ _ =>
    split
    · exact refl s
    · next l hm =>
      have hl := matched_eq_some hm
      split
      · next hst => exact renew (lease_unoffered hl hst) _ _ _
      · next hst => exact renew (lease_unoffered hl hst) _ _ _
      · next hst => exact countMiss (lease_unoffered hl hst) _ _ _ _
      · next hst => exact countMiss (lease_unoffered hl hst) _ _ _ _
      · next hst => exact countMiss (lease_unoffered hl hst) _ _ _ _
      · next hst => exact countMiss (lease_unoffered hl hst) _ _ _ _
      · exact refl s
  · exact refl s

theorem pollTaken (n : Slot) (s : State) : s.Withdraws (s.pollTaken n) := by
  unfold State.pollTaken
  split
  · exact cond same same
  · exact same

theorem pollDone (t : Txn) (o : AttemptOutcome) (s : State) : s.Withdraws (s.pollDone t o) := by
  unfold State.pollDone
  split
  · exact ((pollEffect t o s).trans (pollTaken _ _)).trans (pollSettle _)
  · exact refl s

theorem setPollMode (mode : PollMode) (s : State) : s.Withdraws (s.setPollMode mode) :=
  cond (refl s) (cond same (cond (afterSame (ofWalk (.beginRound _))) same))

theorem pollControlRequest (tag : Byte) (args : List Byte) (s : State) : s.Withdraws (pollControlRequest tag args s) := by
  unfold Machine.pollControlRequest
  split
  · split
    · exact same
    · exact (setPollMode _ s).andSame
  · exact same

theorem pollRoundRequest (tag : Byte) (args : List Byte) (s : State) : s.Withdraws (pollRoundRequest tag args s) := by
  unfold Machine.pollRoundRequest
  split
  · exact cond same (cond same (ofWalk (.beginRound s)).andSame)
  · exact same

/-! ### Census -/

theorem walkOrWait (s : State) : s.Withdraws s.walkOrWait := by
  unfold State.walkOrWait
  split
  · exact same
  · split <;> exact same

theorem censusWalk (s : State) : s.Withdraws s.censusWalk := cond (afterSame (walkOrWait _)) (walkOrWait s)

theorem offerRelease (a : Address) (r : ReleaseReason) (s : State) : s.Withdraws (s.offerRelease a r) :=
  cond same (cond same same)

theorem conflictAt (a : Address) (s : State) : s.Withdraws (s.conflictAt a) := (offerRelease a .conflict s).andRaise

/-- A re-bound lease was LOST (R140). -/
theorem rebind {n : Slot} {s : State} (h : isOffered (s.lease n) = false) (l : Lease) (q : Nat) (a : Address) (cls : Byte)
    (units : Nat) : s.Withdraws (s.rebind n l q a cls units) := by
  have moved : s.Withdraws (if l.address = a then s else (s.putEntry l.address (quarantineEntry q)).putEntry a (.held n)) :=
    cond same same
  have bound := aside (moved.unoffered h) (State.changeStatus_lease n (rebound l a cls) (.bound (4 * units) 0) _)
  exact ((moved.trans bound).andSame (u := State.countAdopted _)).trans (joinRing n _)

/-- A new lease that is not OFFERED takes a FREE slot. -/
theorem createLease {n : Slot} {s : State} {l : Lease} (hn : s.freeSlot = some n) (hl : isOffered (some l) = false := by rfl) :
    s.Withdraws (s.createLease n l) := aside (by rw [freeSlot_eq_some hn]; rfl) (State.createLease_lease n l s) hl

theorem adopt (x : Identity) (a : Address) (cls : Byte) (units : Nat) (s : State) :
    s.Withdraws (s.adopt x a cls units) := by
  unfold State.adopt
  split
  · next n hn =>
    have created := createLease hn (l := newLease (.bound (4 * units) 0) x a (some cls) .adopted)
    exact (created.andSame (u := State.countAdopted _)).trans (joinRing n _)
  · exact same

theorem takeAnswer (a : Address) (x : Identity) (cls : Byte) (units : Nat) (s : State) :
    s.Withdraws (s.takeAnswer a x cls units) := by
  unfold State.takeAnswer
  split
  · next n _ =>
    split
    · exact refl s
    · next l hl =>
      split
      · split
        · next hst => exact rebind (lease_unoffered hl hst) _ _ _ _ _
        · exact refl s
      · split
        · exact offerRelease _ _ s
        · next hst => exact cond (conflictAt a s) (rebind (lease_unoffered hl hst) _ _ _ _ _)
        · exact conflictAt a s
  · exact cond (conflictAt a s) (adopt x a cls units s)

theorem judgeProbe (a : Address) (o : AttemptOutcome) (payload : List Byte) (s : State) :
    s.Withdraws (s.judgeProbe a o payload) := by
  cases o with
  | good => exact cond (refl s) (takeAnswer _ _ _ _ s)
  | noReply => exact refl s
  | garbled r => exact (offerRelease a .clash s).andRaise
  | lineFault => exact refl s

theorem probeTaken (s : State) : s.Withdraws s.probeTaken := by
  unfold State.probeTaken
  dsimp only
  split
  · exact cond (afterSame (censusWalk _)) same
  all_goals exact afterSame (censusWalk _)

theorem probeDone (t : Txn) (o : AttemptOutcome) (s : State) : s.Withdraws (s.probeDone t o) := by
  unfold State.probeDone
  split
  · have judged := judgeProbe ‹Address› o (t.reply.getD []) s
    dsimp only
    split
    · exact cond (judged.trans (probeTaken _)) judged.andSame
    · exact judged.andSame
  · exact refl s

theorem beginSweep (first last : Address) (mode : CensusMode) (s : State) : s.Withdraws (s.beginSweep first last mode) := by
  unfold State.beginSweep
  dsimp only
  split
  · exact same
  all_goals exact afterSame (censusWalk _)

theorem takeStep (s : State) : s.Withdraws s.takeStep := by
  unfold State.takeStep
  split
  · exact censusWalk s
  · exact same
  · exact refl s

theorem censusStartRequest (tag : Byte) (args : List Byte) (s : State) : s.Withdraws (censusStartRequest tag args s) := by
  unfold Machine.censusStartRequest
  split
  · split
    · exact cond (beginSweep _ _ _ s).andSame (cond (beginSweep _ _ _ s).andSame same)
    · exact same
  · exact same

theorem censusStopRequest (tag : Byte) (args : List Byte) (s : State) : s.Withdraws (censusStopRequest tag args s) := by
  unfold Machine.censusStopRequest
  split
  · exact (cond (refl s) (same (t := s.stopCensus))).andSame
  · exact same

theorem censusStepRequest (tag : Byte) (args : List Byte) (s : State) : s.Withdraws (censusStepRequest tag args s) := by
  unfold Machine.censusStepRequest
  split
  · exact cond same (takeStep s).andSame
  · exact same

theorem timerStep (s : State) : s.Withdraws s.timerStep := by
  unfold State.timerStep
  split
  · exact cond (takeStep s) (refl s)
  · exact cond (censusWalk s) (refl s)
  · exact refl s
  · exact refl s

/-! ### Offers, releases and relays -/

/-- An accepted offer leaves the Offer List with its lease BOUND (R92). -/
theorem bindOffer (n : Slot) (l : Lease) (s : State) : s.Withdraws (s.bindOffer n l) :=
  (drop (State.changeStatus_lease n { l with cadenceCount := 1, lastStatus := none } _ s)).trans (joinRing n _)

theorem offerDone (t : Txn) (o : AttemptOutcome) (s : State) : s.Withdraws (s.offerDone t o) := by
  unfold State.offerDone
  split
  · split
    · exact refl s
    · cases o with
      | good => exact bindOffer _ _ s
      | noReply => exact abandonOffer _ _ s
      | garbled r => exact abandonOffer _ _ s
      | lineFault => exact refl s
  · exact refl s

theorem endReleasing (n : Slot) (full : Bool) (s : State) : s.Withdraws (s.endReleasing n full) := by
  unfold State.endReleasing
  split
  · next l hl =>
    split
    · next hst => exact aside (lease_unoffered hl hst) (State.vacate_lease n l _ s)
    · exact refl s
  · exact refl s

theorem completeRelease (t : Txn) (o : AttemptOutcome) (n : Slot) (tag : Byte) (a : Address) (s : State) :
    s.Withdraws (s.completeRelease t o n tag a) := (cond (endReleasing n _ s) (refl s)).andSame

theorem releaseDone (t : Txn) (o : AttemptOutcome) (s : State) : s.Withdraws (s.releaseDone t o) := by
  unfold State.releaseDone
  split
  · exact refl s
  · split
    · exact afterSame (completeRelease t o _ _ _ _)
    all_goals exact same

theorem relayDone (t : Txn) (o : AttemptOutcome) (s : State) : s.Withdraws (s.relayDone t o) := by
  unfold State.relayDone
  split <;> exact same

/-- A lease that a forced RETIRE frees leaves the Offer List, if it was there (R23). -/
theorem retireNow (n : Slot) (l : Lease) (s : State) : s.Withdraws (s.retireNow n l) :=
  (drop (t := (s.vacate n l _).leaveRing n) (State.vacate_lease n l _ s)).trans (pollSettle _)

theorem retireForcedRequest (tag : Byte) (args : List Byte) (s : State) : s.Withdraws (retireForcedRequest tag args s) := by
  unfold Machine.retireForcedRequest
  split
  · split
    · exact same
    · refine cond same ?_
      split
      · exact same
      · split
        · exact same
        · exact (retireNow _ _ s).andSame
  · exact same

theorem retireByRelease {n : Slot} {s : State} (h : isOffered (s.lease n) = false) (l : Lease) (term : Nat) (tag : Byte) :
    s.Withdraws (s.retireByRelease n l term tag) := by
  have started (rs : List Release) : s.Withdraws (((s.setReleases rs).startReleasing n l term).defer .retire) :=
    ((aside (t := ((s.setReleases rs).changeStatus n l (.releasing term)).leaveRing n) h
      (State.changeStatus_lease n l _ s)).trans (pollSettle _)).andSame
  unfold State.retireByRelease
  split
  · exact cond same (started _)
  · exact cond same (started _)

theorem retireGracefulRequest (tag : Byte) (args : List Byte) (s : State) :
    s.Withdraws (retireGracefulRequest tag args s) := by
  unfold Machine.retireGracefulRequest
  split
  · split
    · exact same
    · split
      · exact same
      · next hl =>
        split
        · exact same
        · next hst => exact retireByRelease (lease_unoffered hl hst) _ _ tag
        · next hst => exact retireByRelease (lease_unoffered hl hst) _ _ tag
        · exact same
  · exact same

/-- The outcome of a transaction at its owner (Table 3-5). -/
theorem txnDone (t : Txn) (o : AttemptOutcome) (s : State) : s.Withdraws (s.txnDone t o) := by
  unfold State.txnDone
  split
  · exact pollDone t o s
  · exact refl s
  · exact offerDone t o s
  · exact releaseDone t o s
  · exact probeDone t o s
  · exact relayDone t o s

theorem countTxnAttempt (t : Txn) (o : AttemptOutcome) (s : State) : s.Withdraws (s.countTxnAttempt t o) := by
  unfold State.countTxnAttempt
  split
  · exact countAttempt _ _ _ _ s
  · exact countAttempt _ _ _ _ s
  · exact refl s

/-- A failed attempt is counted in its entry, which keeps its slot (R94). -/
theorem countFailedOffer (t : Txn) (s : State) : s.Withdraws (s.countFailedOffer t) := by
  unfold State.countFailedOffer
  split
  · refine same ⟨rfl, ?_, rfl⟩
    simp only [State.countOfferAttempt, Enrolment.slots, List.map_map]
    exact List.map_congr_left fun o _ => by dsimp only [Function.comp]; split <;> rfl
  · exact refl s

/-! ### The fault drop, RESET_TRUNK and the strobe -/

theorem dropLease (s : State) (n : Slot) : s.Withdraws (s.dropLease n) := by
  unfold State.dropLease
  split
  · exact refl s
  · next hl =>
    split
    · next hst => exact loseLease (lease_unoffered hl hst) _ _
    · next hst => exact loseLease (lease_unoffered hl hst) _ _
    · exact abandonOffer _ _ s
    · exact refl s

/-- A fault drop leaves no slot OFFERED (R69). -/
theorem dropLease_lease (s : State) (n : Slot) : isOffered ((s.dropLease n).lease n) = false := by
  cases h : isOffered (s.lease n) with
  | false => exact (dropLease s n).unoffered h
  | true =>
    obtain ⟨l, prior, hl, hst⟩ := isOffered_iff.mp h
    simp only [State.dropLease, hl, hst, abandonOffer_lease]

theorem settleReleases (full withData : Bool) (r : Result) (es : List Release) (s : State) :
    s.Withdraws (s.settleReleases full withData r es) := by
  induction es generalizing s with
  | nil => exact refl s
  | cons e rest ih =>
    unfold State.settleReleases
    split
    · exact ((endReleasing _ full s).andSame).trans (ih _)
    all_goals exact ih s

/-- Every slot is taken, so the Offer List is emptied of entries whose leases are no longer OFFERED. -/
theorem takeFaultDrop (s : State) : s.Withdraws s.takeFaultDrop := by
  have dropped (n : Slot) : isOffered ((allSlots.foldl State.dropLease s).lease n) = false :=
    foldl_unoffered (slot := id) dropLease dropLease_lease allSlots s n (List.mem_finRange n)
  unfold State.takeFaultDrop
  dsimp only
  generalize allSlots.foldl State.dropLease s = t at dropped ⊢
  have emptied : s.Withdraws (State.setReleases [] { t with enrol := { t.enrol with offers := [] } }) := all dropped rfl
  exact (emptied.trans (settleReleases _ _ _ _ _)).andRaise.trans (pollSettle _)

theorem dropEvent (s : State) : s.Withdraws s.dropEvent := cond (afterSame (takeFaultDrop _)) (refl s)

theorem cancelRelays (es : List Relay) (s : State) : s.Withdraws (s.cancelRelays es) := by
  induction es generalizing s with
  | nil => exact refl s
  | cons e rest ih => exact afterSame (ih _)

theorem settlePolling (s : State) : s.Withdraws s.settlePolling := cond (afterSame (ofWalk (.beginRound _))) same

theorem answerDisable (s : State) : s.Withdraws s.answerDisable := by
  unfold State.answerDisable
  split <;> exact same

theorem enterOff (s : State) : s.Withdraws s.enterOff := afterSame (answerDisable _)

/-- No transaction is in flight any more. -/
theorem endTxn (s : State) : s.Withdraws (s.setTxn none) := spare (fun _ => rfl) rfl nofun

/-- Every entry of the Offer List is taken, and with it every OFFERED lease (R63). -/
theorem resetTrunk {s : State} (hs : ∀ n : Slot, isOffered (s.lease n) = true → n ∈ s.enrol.slots) :
    s.Withdraws s.resetTrunk := by
  have cancelled : s.Withdraws (State.cancelRelays s.relays (s.setRelays [])) := afterSame (cancelRelays s.relays _)
  unfold State.resetTrunk
  dsimp only
  generalize State.cancelRelays s.relays (s.setRelays []) = t at cancelled ⊢
  have settled := (cancelled.andSame (u := t.setReleases [])).trans (settleReleases true false .cancelled s.releases _)
  generalize State.settleReleases true false .cancelled s.releases (t.setReleases []) = u at settled ⊢
  have each (v : State) (o : Offer) : v.Withdraws (v.abandonOffer o.slot v.offerQuarantine) := abandonOffer _ _ v
  have abandoned := settled.trans (foldl each s.enrol.offers u)
  have gone := foldl_unoffered (slot := Offer.slot) each (fun v o => abandonOffer_lease _ _ v) s.enrol.offers u
  generalize s.enrol.offers.foldl (fun u o => u.abandonOffer o.slot u.offerQuarantine) u = v at abandoned gone ⊢
  have none_left (n : Slot) : isOffered (v.lease n) = false := by
    cases h : isOffered (s.lease n) with
    | false => exact abandoned.unoffered h
    | true =>
      obtain ⟨o, ho, rfl⟩ := List.mem_map.mp (hs n h)
      exact gone o ho
  have emptied : s.Withdraws (State.settleCensus { v with enrol := { v.enrol with offers := [], solicitDue := false } }) :=
    all none_left rfl
  have stopped := (emptied.trans (settlePolling _)).trans (endTxn _)
  exact (stopped.andSame).trans (enterOff _)

theorem strobeLease (s : State) (n : Slot) : s.Withdraws (s.strobeLease n) := by
  unfold State.strobeLease
  split
  · exact refl s
  · next l hl =>
    split
    · next hst =>
      have hn := lease_unoffered hl hst
      exact cond (loseLease hn l _) (aside hn (State.putLease_lease n _ s))
    · next hst =>
      have hn := lease_unoffered hl hst
      exact cond (loseLease hn l _) (aside hn (State.putLease_lease n _ s))
    · next hst =>
      have hn := lease_unoffered hl hst
      exact cond (aside hn (State.vacate_lease n l _ s)) (aside hn (State.putLease_lease n _ s))
    · exact refl s

theorem takeStrobe (s : State) : s.Withdraws s.takeStrobe :=
  ((foldl (fun _ _ => same) allAddresses s).trans (foldl strobeLease allSlots _)).trans (pollSettle _)

end State.Withdraws
end Sys2Proof.Machine

/-! ## Requests, events and grants against the Offer List -/
namespace Sys2Proof.Machine
set_option Elab.async false

namespace State.Withdraws

/-! ### Requests that withdraw nothing -/

theorem causeControlRequest (tag : Byte) (args : List Byte) (s : State) : s.Withdraws (causeControlRequest tag args s) := by
  unfold Machine.causeControlRequest
  split
  · split
    · exact same
    · exact cond same same
  · exact same

theorem readCausesRequest (tag : Byte) (args : List Byte) (s : State) : s.Withdraws (readCausesRequest tag args s) := by
  unfold Machine.readCausesRequest
  split <;> exact same

theorem readChangesRequest (tag : Byte) (args : List Byte) (s : State) : s.Withdraws (readChangesRequest tag args s) := by
  unfold Machine.readChangesRequest
  split
  · have removed (ns : List Slot) : s.Withdraws (s.removeChanges ns) := foldl (fun _ _ => same) ns s
    have cleared (t : State) : t.Withdraws t.clearChanges := cond same (refl t)
    exact cond ((removed (s.changeSet.take _)).trans (cleared _)).andSame same
  · exact same

theorem readEngineRequest (tag : Byte) (args : List Byte) (s : State) : s.Withdraws (readEngineRequest tag args s) := by
  unfold Machine.readEngineRequest
  split <;> exact same

theorem readConfigRequest (tag : Byte) (args : List Byte) (s : State) : s.Withdraws (readConfigRequest tag args s) := by
  unfold Machine.readConfigRequest
  split
  · exact cond same same
  · exact same

/-- A change of every lease that leaves each its status, but for the misses it counts. -/
theorem mapLeases {f : Lease → Lease} (hf : ∀ l, isOffered (some (f l)) = isOffered (some l)) (s : State) :
    s.Withdraws (s.mapLeases f) := by
  refine foldl (fun t n => ?_) allSlots s
  split
  · next l hl => exact write (State.putLease_lease n _ t) (by rw [hl, hf])
  · exact refl t

theorem isOffered_clearMiss (l : Lease) : isOffered (some l.clearMiss) = isOffered (some l) := by
  unfold Lease.clearMiss
  split
  · next h => simp [isOffered, h]
  · next h => simp [isOffered, h]
  · rfl

theorem writeEffect (q : Param) (before after : Nat) (s : State) : s.Withdraws (s.writeEffect q before after) := by
  unfold State.writeEffect
  split
  · exact same
  · exact mapLeases isOffered_clearMiss s
  · exact mapLeases isOffered_clearMiss s
  · exact cond (refl s) (mapLeases (f := Lease.restartWindow) (fun _ => rfl) s)
  · exact refl s

theorem configureRequest (tag : Byte) (args : List Byte) (s : State) : s.Withdraws (configureRequest tag args s) := by
  unfold Machine.configureRequest
  split
  · next number lo hi =>
    split
    · exact same
    · next q _ =>
      have written : s.Withdraws ((s.setParams (s.params.put (halfOf lo hi).toNat q)).writeEffect q (s.params.get q)
          (halfOf lo hi).toNat) := afterSame (writeEffect _ _ _ _)
      exact cond same (cond same written.andSame)
  · exact same

theorem readSlotRequest (tag : Byte) (args : List Byte) (s : State) : s.Withdraws (readSlotRequest tag args s) := by
  unfold Machine.readSlotRequest
  split
  · split <;> exact same
  · exact same

theorem lookupIdentityRequest (tag : Byte) (args : List Byte) (s : State) :
    s.Withdraws (lookupIdentityRequest tag args s) := by
  unfold Machine.lookupIdentityRequest
  split
  · split
    · exact same
    · split <;> exact same
  · exact same

theorem lookupAddressRequest (tag : Byte) (args : List Byte) (s : State) :
    s.Withdraws (lookupAddressRequest tag args s) := by
  unfold Machine.lookupAddressRequest
  split
  · split <;> exact same
  · exact same

/-- SET_FIELDS writes a lease and leaves its status (R29). -/
theorem setFieldsRequest (tag : Byte) (args : List Byte) (s : State) : s.Withdraws (setFieldsRequest tag args s) := by
  have kept (l : Lease) (c : Nat) (label : Option Half) : isOffered (some (l.withFields c label)) = isOffered (some l) := by
    unfold Lease.withFields
    split <;> rfl
  unfold Machine.setFieldsRequest
  split
  · split
    · exact same
    · refine cond same ?_
      split
      · exact same
      · next n _ _ l hl =>
        split
        · exact same
        · exact (write (State.putLease_lease n _ s) (hl ▸ kept l _ _)).andSame
  · exact same

theorem pinRequest (tag : Byte) (args : List Byte) (s : State) : s.Withdraws (pinRequest tag args s) := by
  unfold Machine.pinRequest
  split
  · dsimp only
    split
    · exact same
    · split
      · exact same
      · refine cond same ?_
        split
        · exact same
        · next hn => exact (createLease hn (l := newLease .reserved _ _ none .pinned)).andSame
  · exact same

theorem ringMoveRequest (tag : Byte) (args : List Byte) (s : State) : s.Withdraws (ringMoveRequest tag args s) := by
  unfold Machine.ringMoveRequest
  split
  · split
    · exact cond same (cond same (cond same same))
    · exact same
  · exact same

theorem setEnrolModeRequest (tag : Byte) (args : List Byte) (s : State) : s.Withdraws (setEnrolModeRequest tag args s) := by
  unfold Machine.setEnrolModeRequest
  split
  · split <;> exact same
  · exact same

theorem admitAddRequest (tag : Byte) (args : List Byte) (s : State) : s.Withdraws (admitAddRequest tag args s) := by
  unfold Machine.admitAddRequest
  split
  · exact cond same (cond same same)
  · exact same

theorem admitRemoveRequest (tag : Byte) (args : List Byte) (s : State) : s.Withdraws (admitRemoveRequest tag args s) := by
  unfold Machine.admitRemoveRequest
  split
  · exact cond same same
  · exact same

theorem admitClearRequest (tag : Byte) (args : List Byte) (s : State) : s.Withdraws (admitClearRequest tag args s) := by
  unfold Machine.admitClearRequest
  split <;> exact same

theorem admitReadRequest (tag : Byte) (args : List Byte) (s : State) : s.Withdraws (admitReadRequest tag args s) := by
  unfold Machine.admitReadRequest
  split
  · refine cond same ?_
    split <;> exact same
  · exact same

theorem censusStatusRequest (tag : Byte) (args : List Byte) (s : State) : s.Withdraws (censusStatusRequest tag args s) := by
  unfold Machine.censusStatusRequest
  split <;> exact same

theorem relayRequest (tag : Byte) (args : List Byte) (s : State) : s.Withdraws (relayRequest tag args s) := by
  unfold Machine.relayRequest
  split
  · refine cond same ?_
    split
    · dsimp only
      split
      · exact cond same same
      · exact cond (cond same same) same
    · exact same
  · exact same

theorem relayCancelRequest (tag : Byte) (args : List Byte) (s : State) : s.Withdraws (relayCancelRequest tag args s) := by
  unfold Machine.relayCancelRequest
  split
  · exact cond same (cond same same)
  · exact same

theorem echoRequest (tag : Byte) (args : List Byte) (s : State) : s.Withdraws (echoRequest tag args s) := cond same same

theorem badFrameRequest (e : ReqEntry) (s : State) : s.Withdraws (badFrameRequest e s) := by
  cases e <;> exact same

theorem unknownRequestAnswer (e : ReqEntry) (s : State) : s.Withdraws (unknownRequestAnswer e s) := by
  cases e <;> exact same

theorem enableRequest (tag : Byte) (args : List Byte) (s : State) : s.Withdraws (enableRequest tag args s) := by
  have enabled : s.Withdraws s.enableTrunk := cond same (refl s)
  unfold Machine.enableRequest
  split
  · exact cond same (cond same enabled.andSame)
  · exact same

theorem disableRequest (tag : Byte) (args : List Byte) (s : State) : s.Withdraws (disableRequest tag args s) := by
  unfold Machine.disableRequest
  split
  · exact same
  · split
    · exact same
    · exact (enterOff s).andSame
    · exact (enterOff s).andSame
    · exact same

/-! ### The host port and the resets -/

theorem assemble (b : Byte) (a : Assembly) (s : State) : s.Withdraws (s.assemble b a) := by
  cases a with
  | expectLength => exact cond (cond same same) (cond same same)
  | inFrame n got => exact cond same same
  | skip m => exact same
  | discard => exact refl s

theorem sendByte (out : ResponseByte) (s : State) : s.Withdraws (s.sendByte out) := by
  cases out <;> exact same

/-- A reset leaves every slot FREE and the Offer List empty (R30, R98). -/
theorem held (pins : Pins) (pending : List Instr) (s : State) : s.Withdraws (State.held pins pending) :=
  all (fun n => by simp [State.lease, State.held, LeaseTable.reset, isOffered]) rfl

theorem restart (s : State) : s.Withdraws s.restart := cond same same

theorem resetRequest (tag : Byte) (args : List Byte) (s : State) : s.Withdraws (resetRequest tag args s) := by
  unfold Machine.resetRequest
  split
  · have blocks : s.Withdraws s.resetBlocks :=
      ((held s.pins s.pending s).andSame (u := State.setAccess s.host.access.afterReset _)).trans (restart _)
    exact blocks.andSame
  · exact same

/-! ### The Timing Unit -/

theorem secondsEvent (s : State) : s.Withdraws s.secondsEvent := cond (afterSame (takeStrobe _)) (refl s)

theorem paceEvent (s : State) : s.Withdraws s.paceEvent := by
  unfold State.paceEvent
  refine cond ?_ (refl s)
  dsimp only
  refine cond ?_ same
  split
  · exact afterSame (ofWalk (.beginRound _))
  · exact same
  · exact same

theorem solicitEvent (s : State) : s.Withdraws s.solicitEvent := cond (cond same same) (refl s)

theorem censusStepEvent (s : State) : s.Withdraws s.censusStepEvent := cond (afterSame (timerStep _)) (refl s)

theorem tickEvent (s : State) : s.Withdraws s.tickEvent :=
  ((((secondsEvent s).trans (paceEvent _)).trans (solicitEvent _)).trans ((censusStepEvent _).trans (dropEvent _))).andSame

theorem refclkPeriod (s : State) : s.Withdraws s.refclkPeriod := by
  have clock : s.Withdraws (if s.engine.state.timed then
      { s with engine := { s.engine with clock := s.engine.clock + 1 } } else s) := cond same (refl s)
  exact clock.trans (cond (tickEvent _) same)

/-! ### Attempts and faults -/

theorem leaveTrunk (s : State) : s.Withdraws s.leaveTrunk := by
  unfold State.leaveTrunk
  split
  · exact enterOff s
  · exact same

theorem abortForFault (s : State) : s.Withdraws s.abortForFault := by
  unfold State.abortForFault
  split
  · exact refl s
  · split
    · exact leaveTrunk s
    · exact ((endTxn s).trans (txnDone _ _ _)).trans (leaveTrunk _)

/-- The transaction in flight stays of its kind. -/
theorem reviseTxn {s : State} {t t' : Txn} (ht : s.engine.txn = some t) (hk : t'.kind = t.kind) :
    s.Withdraws (s.setTxn (some t')) :=
  spare (fun _ => rfl) rfl fun hi => .inl (by simpa [State.inListen, ht, hk] using hi)

theorem endAttempt (ended : Nat) (o : AttemptOutcome) (payload : Option (List Byte)) (s : State) :
    s.Withdraws (s.endAttempt ended o payload) := by
  cases ht : s.engine.txn with
  | none => simpa only [State.endAttempt, ht] using refl s
  | some t =>
    have counted := (countTxnAttempt (t.ended o payload) o s).andSame (u := State.enterGuard ended _)
    by_cases h : o = .good ∨ t.maxAttempts ≤ t.attempt
    · rw [endAttempt_last ht h]
      exact (counted.trans (endTxn _)).trans (txnDone _ _ _)
    · obtain ⟨ho, hmore⟩ := not_or.mp h
      rw [endAttempt_goesOn ht ho (Nat.not_le.mp hmore)]
      have htxn := (State.LeavesTrunk.countTxnAttempt (t.ended o payload) o s).2
      have revised := reviseTxn (t' := t.ended o payload)
        (s := State.enterGuard ended (s.countTxnAttempt (t.ended o payload) o)) ((congrArg Engine.txn htxn).trans ht) rfl
      exact (counted.trans revised).trans (countFailedOffer _ _)

theorem endReply (short : Bool) (ended : Nat) (s : State) : s.Withdraws (s.endReply short ended) := by
  unfold State.endReply
  split
  · exact refl s
  · split
    · exact refl s
    · split <;> exact endAttempt _ _ _ s

theorem windowTimeout (s : State) : s.Withdraws s.windowTimeout := cond (afterSame (endAttempt _ _ _ _)) (refl s)

theorem gatherReply (c : RxChar) (t : Nat) (s : State) : s.Withdraws (s.gatherReply c t) := by
  have marked (r : Reception) (k : Nat) : s.Withdraws (match (s.setReception r).engine.txn with
      | some x => (s.setReception r).setTxn (some { x with errorMap := markError x.errorMap k c })
      | none => s.setReception r) := by
    split
    · next x hx => exact afterSame (reviseTxn (s := s.setReception r) hx rfl)
    · exact same
  exact cond (endReply true t s) (cond ((marked _ _).trans (endReply _ _ _)) (marked _ _))

theorem beginCharacter (t : Nat) (s : State) : s.Withdraws (s.beginCharacter t) := by
  unfold State.beginCharacter
  split
  · exact same
  · exact same
  · exact refl s

/-! ### Grants (3.3) -/

/-- The transaction that begins is no SOLICIT. -/
theorem beginTxn {t : Txn} (hk : t.kind ≠ .solicit) (burst : Nat) (s : State) : s.Withdraws (s.beginTxn t burst) := by
  refine spare (fun _ => rfl) rfl fun hi => ?_
  rw [inListen_other rfl hk] at hi
  cases hi

theorem grantOffer (o : Offer) (s : State) : s.Withdraws (s.grantOffer o) := by
  unfold State.grantOffer
  split
  · exact refl s
  · exact beginTxn (by simp [newTxn]) _ s

theorem grantPoll (n : Slot) (s : State) : s.Withdraws (s.grantPoll n) := by
  unfold State.grantPoll
  split
  · exact refl s
  · exact afterSame (beginTxn (by simp [newTxn]) _ _)

/-- A SOLICIT is granted over an empty Offer List (R90). -/
theorem grantSolicit {s : State} (hs : s.enrol.slots = []) : s.Withdraws s.grantSolicit :=
  spare (fun _ => rfl) rfl fun _ => .inr hs

theorem grantLow {s : State} (hs : s.enrol.slots = []) : s.Withdraws s.grantLow := by
  unfold State.grantLow
  split
  · exact afterSame (beginTxn (by simp [newTxn]) _ _)
  · split
    · exact grantPoll _ s
    · exact cond (grantSolicit hs) (refl s)

theorem arbitrateRelays (queue : List Relay) {s : State} (hs : s.enrol.slots = []) :
    s.Withdraws (s.arbitrateRelays queue) := by
  induction queue generalizing s with
  | nil =>
    unfold State.arbitrateRelays
    split
    · exact grantPoll _ s
    · exact grantLow hs
  | cons e rest ih =>
    have refused (n : Slot) : s.Withdraws ((s.refuseRelay e rest n).arbitrateRelays rest) := afterSame (ih hs)
    unfold State.arbitrateRelays
    split
    · exact grantPoll _ s
    · split
      · exact afterSame (beginTxn (by simp [newTxn]) _ _)
      · split
        · exact cond (afterSame (beginTxn (by simp [newTxn]) _ _)) (refused _)
        · exact refused _

/-- An offer goes ahead of every other source, so that a SOLICIT is granted when there is none (Table 3-6). -/
theorem arbitrate (s : State) : s.Withdraws s.arbitrate := by
  unfold State.arbitrate
  split
  · exact grantOffer _ s
  · exact afterSame (beginTxn (by simp [newTxn]) _ _)
  · next ho _ => exact arbitrateRelays _ (by rw [Enrolment.slots, ho]; rfl)

end State.Withdraws
end Sys2Proof.Machine

/-! ## The Offer List through a step (4.3, 4.5) -/
namespace Sys2Proof.Machine
set_option Elab.async false

/-! ### The results of a solicit (4.3) -/

/-- The Offer List holds each OFFERED slot exactly once and no other. -/
def State.OffersExact (s : State) : Prop :=
  s.enrol.slots.Nodup ∧ ∀ n : Slot, n ∈ s.enrol.slots ↔ isOffered (s.lease n) = true

theorem slots_length (e : Enrolment) : e.slots.length = e.offers.length := List.length_map _

theorem slots_eq_nil {e : Enrolment} : e.slots = [] ↔ e.offers = [] := List.map_eq_nil_iff

/-- Withdrawals leave the Offer List exact. -/
theorem State.Withdraws.offersExact {s t : State} (h : s.Withdraws t) (hs : s.OffersExact) :
    t.OffersExact ∧ t.enrol.offers.length ≤ s.enrol.offers.length := by
  obtain ⟨⟨stays, hslots, hlease⟩, -⟩ := h
  obtain ⟨hnodup, hmem⟩ := hs
  refine ⟨⟨?_, fun n => ?_⟩, ?_⟩
  · rw [hslots]
    exact hnodup.filter stays
  · rw [hslots, hlease, List.mem_filter, hmem, Bool.and_eq_true]
  · rw [← slots_length, ← slots_length, hslots]
    exact List.length_filter_le _ _

/-- A slot that was not OFFERED becomes so, and joins the Offer List (R79 to R84). -/
theorem addOffer_exact {s t : State} {n : Slot} {l : Lease} (hs : s.OffersExact) (hn : isOffered (s.lease n) = false)
    (hl : ∀ m, t.lease m = if m = n then some l else s.lease m) (ho : isOffered (some l) = true)
    (henrol : t.enrol = s.enrol := by rfl) :
    (t.addOffer n).OffersExact ∧ (t.addOffer n).enrol.offers.length ≤ s.enrol.offers.length + 1 := by
  obtain ⟨hnodup, hmem⟩ := hs
  have hslots : (t.addOffer n).enrol.slots = s.enrol.slots ++ [n] := by
    simp [State.addOffer, Enrolment.slots, henrol]
  have hout : n ∉ s.enrol.slots := by simp [hmem, hn]
  refine ⟨⟨?_, fun m => ?_⟩, ?_⟩
  · rw [hslots]
    exact hnodup.append (List.nodup_singleton n) (List.disjoint_singleton.mpr hout)
  · rw [hslots, List.mem_append, hmem, List.mem_singleton, State.addOffer_lease, hl]
    split
    · next e => simp [e, ho]
    · next e => simp [e]
  · rw [← slots_length, ← slots_length, hslots]
    simp

theorem newcomer_exact (j : Join) {s : State} (hs : s.OffersExact) :
    (s.newcomer j).OffersExact ∧ (s.newcomer j).enrol.offers.length ≤ s.enrol.offers.length + 1 := by
  unfold State.newcomer
  split
  · exact ⟨hs, Nat.le_succ _⟩
  · split
    · exact ⟨hs, Nat.le_succ _⟩
    · next n hn =>
      split
      · exact ⟨hs, Nat.le_succ _⟩
      · exact addOffer_exact hs (by rw [freeSlot_eq_some hn]; rfl) (State.createLease_lease n _ s) rfl

/-- A JOIN adds one offer at most, of a slot that was not OFFERED (R78). -/
theorem takeJoin_exact (j : Join) {s : State} (hs : s.OffersExact) :
    (s.takeJoin j).OffersExact ∧ (s.takeJoin j).enrol.offers.length ≤ s.enrol.offers.length + 1 := by
  unfold State.takeJoin
  split
  · exact newcomer_exact j hs
  · next n _ =>
    split
    · exact ⟨hs, Nat.le_succ _⟩
    · next l hl =>
      have rejoined (hn : isOffered (s.lease n) = false) (prior : Prior) : (s.rejoin n l prior j).OffersExact ∧
          (s.rejoin n l prior j).enrol.offers.length ≤ s.enrol.offers.length + 1 :=
        addOffer_exact hs hn (State.changeStatus_lease n _ _ s) rfl
      have unbound (hn : isOffered (s.lease n) = false) : ((s.rejoin n l .lost j).leaveRing n).pollSettle.OffersExact ∧
          ((s.rejoin n l .lost j).leaveRing n).pollSettle.enrol.offers.length ≤ s.enrol.offers.length + 1 := by
        obtain ⟨hexact, hlength⟩ := rejoined hn .lost
        obtain ⟨hexact', hlength'⟩ := (State.Withdraws.pollSettle ((s.rejoin n l .lost j).leaveRing n)).offersExact hexact
        exact ⟨hexact', hlength'.trans hlength⟩
      split
      · exact ⟨hs, Nat.le_succ _⟩
      · next hst => exact rejoined (lease_unoffered hl hst) _
      · next hst => exact rejoined (lease_unoffered hl hst) _
      · next hst => exact unbound (lease_unoffered hl hst)
      · next hst => exact unbound (lease_unoffered hl hst)
      · exact ⟨hs, Nat.le_succ _⟩

/-- Each result of a solicit adds one offer at most (R77). -/
theorem takeResults_exact (seen : List Identity) (results : List SubSlotResult) {s : State} (hs : s.OffersExact) :
    (s.takeResults seen results).OffersExact ∧
      (s.takeResults seen results).enrol.offers.length ≤ s.enrol.offers.length + results.length := by
  induction results generalizing seen s with
  | nil => exact ⟨hs, Nat.le_refl _⟩
  | cons r rest ih =>
    have passed (seen : List Identity) {u : State} (hu : u.OffersExact)
        (hlength : u.enrol.offers.length ≤ s.enrol.offers.length + 1) : (u.takeResults seen rest).OffersExact ∧
          (u.takeResults seen rest).enrol.offers.length ≤ s.enrol.offers.length + (rest.length + 1) := by
      obtain ⟨hexact, hrest⟩ := ih seen hu
      exact ⟨hexact, by omega⟩
    cases r with
    | empty => exact passed seen hs (Nat.le_succ _)
    | collided => exact passed seen hs (Nat.le_succ _)
    | join j =>
      obtain ⟨hjoin, hlength⟩ := takeJoin_exact j hs
      unfold State.takeResults
      split
      · exact passed seen hs (Nat.le_succ _)
      · exact passed _ hjoin hlength

/-! ### What a step does to it (R77, R90) -/

namespace State.OffersMatch

variable {s : State}

theorem offersExact (hs : s.OffersMatch) : s.OffersExact := ⟨hs.1, hs.2.1⟩

/-- Withdrawals keep the Offer List in agreement with the leases. -/
theorem withdraws {t : State} (hs : s.OffersMatch) (h : s.Withdraws t) : t.OffersMatch := by
  obtain ⟨⟨hnodup, hmem⟩, hlength⟩ := h.offersExact hs.offersExact
  obtain ⟨-, -, hempty, hfour⟩ := hs
  refine ⟨hnodup, hmem, fun hi => slots_eq_nil.mp ?_, hlength.trans hfour⟩
  rcases h.listen hi with hl | hnil
  · have hlen : t.enrol.offers.length ≤ 0 := by simpa [hempty hl] using hlength
    exact slots_eq_nil.mpr (List.length_eq_zero_iff.mp (Nat.le_zero.mp hlen))
  · exact hnil

/-- A change of other blocks alone. -/
theorem same {t : State} (hs : s.OffersMatch) (h : t.table.slots = s.table.slots ∧ t.enrol.slots = s.enrol.slots ∧
    t.engine.txn = s.engine.txn := by exact ⟨rfl, rfl, rfl⟩) : t.OffersMatch := hs.withdraws (.same h)

/-- One of two states, by a condition. -/
theorem cond {t u : State} {c : Prop} [Decidable c] (h : c → t.OffersMatch) (k : ¬c → u.OffersMatch) :
    (if c then t else u).OffersMatch := by
  split
  · exact h ‹_›
  · exact k ‹_›

/-- With no transaction in flight, and no offer standing, up to four results make up to four offers. -/
theorem evaluateSolicit (hs : s.OffersMatch) (hnone : s.enrol.offers = []) (htxn : s.engine.txn = none)
    {results : List SubSlotResult} (hfour : results.length ≤ 4) : (s.evaluateSolicit results).OffersMatch := by
  by_cases hm : s.enrol.mode = .closed
  · rw [evaluateSolicit_closed hm]
    exact hs
  · rw [evaluateSolicit_open hm]
    obtain ⟨⟨hnodup, hmem⟩, hlength⟩ := takeResults_exact [] results hs.offersExact
    have hidle := (congrArg Engine.txn (State.LeavesTrunk.takeResults [] results s).2).trans htxn
    refine ⟨hnodup, hmem, fun h => ?_, hlength.trans (by simpa [hnone] using hfour)⟩
    simp [State.inListen, hidle] at h

/-- The SOLICIT whose listen ends is in flight over an empty list (R77), and a listen has four sub-slots. -/
theorem endListen (hs : s.OffersMatch) (hi : s.inListen = true) (ended : Nat) : (s.endListen ended).OffersMatch := by
  have hnone : s.enrol.offers = [] := hs.2.2.1 hi
  have freed : s.Withdraws ((s.enterGuard ended).setTxn none) := .afterSame (.endTxn _)
  unfold State.endListen
  refine evaluateSolicit ?_ ?_ ?_ ?_
  · exact hs.withdraws freed.andSame
  · exact hnone
  · rfl
  · simp [Reception.results]

theorem endListenFrame (hs : s.OffersMatch) (hi : s.inListen = true) (short : Bool) (now : Nat) :
    (s.endListenFrame short now).OffersMatch :=
  cond (fun _ => endListen (s := s.keepFrame short) hs.same hi now) fun _ => hs.same

theorem idleTimeout (hs : s.OffersMatch) : s.idleTimeout.OffersMatch := by
  refine cond (fun _ => cond (fun hi => ?_) fun _ => ?_) fun _ => hs
  · exact endListenFrame (s := s.passTo _) hs.same hi _ _
  · exact hs.withdraws ((State.Withdraws.endReply _ _ _).afterSame)

theorem listenTimeout (hs : s.OffersMatch) : s.listenTimeout.OffersMatch :=
  cond (fun hc => endListen (s := s.passTo _) hs.same hc.2 _) fun _ => hs

theorem catchUp (hs : s.OffersMatch) (t : Nat) : (s.catchUp t).OffersMatch := by
  have idle : (if s.engine.reception.idleFrom + s.params.charTime < t then s.idleTimeout else s).OffersMatch :=
    cond (fun _ => hs.idleTimeout) fun _ => hs
  exact cond (fun _ => cond (fun _ => idle.listenTimeout) fun _ => idle)
    fun _ => cond (fun _ => idle.withdraws (.windowTimeout _)) fun _ => idle

theorem startCharacter (hs : s.OffersMatch) (t : Nat) : (s.startCharacter t).OffersMatch :=
  cond (fun _ => (hs.catchUp _).withdraws (.beginCharacter _ _)) fun _ => hs

theorem gatherListen (hs : s.OffersMatch) (hi : s.inListen = true) (c : RxChar) (t : Nat) :
    (s.gatherListen c t).OffersMatch := by
  refine cond (fun _ => cond (fun _ => ?_) fun _ => hs.same) fun _ => cond (fun _ => ?_) fun _ => hs.same
  · exact endListen (s := s.keepFrame true) hs.same hi t
  · exact endListenFrame (s := s.setReception { s.engine.reception with chars := s.engine.reception.chars ++ [c] })
      hs.same hi false _

theorem receiveCharacter (hs : s.OffersMatch) (c : RxChar) : (s.receiveCharacter c).OffersMatch := by
  have begun : (if s.engine.reception.charBegan = none then s.startCharacter s.presumedBegin else s).OffersMatch :=
    cond (fun _ => hs.startCharacter _) fun _ => hs
  unfold State.receiveCharacter
  dsimp only
  generalize (if s.engine.reception.charBegan = none then s.startCharacter s.presumedBegin else s) = u at begun ⊢
  split
  · next t _ _ =>
    exact cond (fun hi => gatherListen (s := u.endCharacter t) begun.same hi c t)
      fun _ => begun.withdraws ((State.Withdraws.gatherReply c t _).afterSame)
  · exact begun

/-! ### Commands -/

/-- An event of a part that is out of reset. -/
theorem ofRunning (hs : s.OffersMatch) {f : State → State} (hf : (f s).OffersMatch) {t : State}
    (h : whenRunning f s = .next t) : t.OffersMatch := by
  rcases whenRunning_cases h with ⟨-, rfl⟩ | ⟨-, rfl⟩
  · exact hs
  · exact hf

/-- The take of an entry of the Request FIFO. -/
theorem ofHead (hs : s.OffersMatch) {row : Instr} {handle : ReqEntry → State → State}
    (hf : ∀ e {u : State}, u.OffersMatch → (handle e u).OffersMatch) {t : State}
    (h : takeHead row handle s = .next t) : t.OffersMatch := by
  rcases takeHead_cases h with rfl | ⟨e, rest, -, -, -, -, rfl⟩
  · exact hs
  · exact hf e hs.same

/-- The take of a request. -/
theorem ofRequest (hs : s.OffersMatch) {row : Instr} {handle : Byte → List Byte → State → State}
    (hf : ∀ tag args {u : State}, u.OffersMatch → (handle tag args u).OffersMatch) {t : State}
    (h : takeRequest row handle s = .next t) : t.OffersMatch := by
  refine ofHead hs (fun e u hu => ?_) h
  cases e with
  | frame bytes => exact hf _ _ hu
  | marker b => exact hu

/-- The take of a request that withdraws offers at most. -/
theorem ofWithdrawal (hs : s.OffersMatch) {row : Instr} {handle : Byte → List Byte → State → State}
    (hf : ∀ tag args (u : State), u.Withdraws (handle tag args u)) {t : State}
    (h : takeRequest row handle s = .next t) : t.OffersMatch := ofRequest hs (fun tag args _ hu => hu.withdraws (hf tag args _)) h

theorem execRstAssert (hs : s.OffersMatch) {t : State} (h : execRstAssert s = .next t) : t.OffersMatch := by
  unfold Machine.execRstAssert at h
  split at h <;> cases h
  · exact hs
  · exact hs.withdraws (.held _ _ s)

theorem execRstRise (hs : s.OffersMatch) {t : State} (h : execRstRise s = .next t) : t.OffersMatch := by
  unfold Machine.execRstRise at h
  split at h <;> cases h
  · exact ((hs.withdraws (.held { s.pins with rstLow := false } s.pending s)).same (t := State.setAccess _ _)).withdraws
      (.restart _)
  · exact hs

theorem execCsFall (hs : s.OffersMatch) {t : State} (h : execCsFall s = .next t) : t.OffersMatch := by
  unfold Machine.execCsFall at h
  split at h
  · cases h
    exact hs
  · exact ofRunning (s := { s with pins := { s.pins with csLow := true } }) hs.same
      (cond (fun _ => hs.same) fun _ => hs.same) h

theorem execCsRise (hs : s.OffersMatch) {t : State} (h : execCsRise s = .next t) : t.OffersMatch := by
  unfold Machine.execCsRise at h
  split at h
  · refine ofRunning (s := { s with pins := { s.pins with csLow := false } }) hs.same ?_ h
    split <;> exact hs.same
  · cases h
    exact hs

theorem execTrunkFaultRising (hs : s.OffersMatch) {t : State} (h : execTrunkFaultRising s = .next t) :
    t.OffersMatch := by
  unfold Machine.execTrunkFaultRising at h
  split at h
  · cases h
    exact hs
  · refine ofRunning (s := { s with pins := { s.pins with fault := true } }) hs.same ?_ h
    exact hs.withdraws (State.Withdraws.abortForFault (State.beginFault _)).afterSame

theorem execTrunkFaultFalling (hs : s.OffersMatch) {t : State} (h : execTrunkFaultFalling s = .next t) :
    t.OffersMatch := by
  unfold Machine.execTrunkFaultFalling at h
  split at h
  · split at h
    · cases h
      exact hs.same
    · obtain rfl := Host.Outcome.next.inj h
      have dropped := hs.withdraws (.dropEvent s)
      exact cond (fun _ => dropped.same) fun _ => dropped.same
  · cases h
    exact hs

theorem execFrameSent (hs : s.OffersMatch) {t : State} (h : execFrameSent s = .next t) : t.OffersMatch := by
  refine ofRunning hs (cond (fun _ => ?_) fun _ => hs) h
  split
  · exact hs
  · exact cond (fun _ => hs.same) fun _ => hs.withdraws (State.Withdraws.endAttempt _ _ _ _).afterSame

/-- The next attempt is of the same transaction (R54). -/
theorem execGuardEnd (hs : s.OffersMatch) {t : State} (h : execGuardEnd s = .next t) : t.OffersMatch := by
  refine ofRunning hs (cond (fun _ => ?_) fun _ => hs) h
  split
  · next x hx => exact hs.withdraws (.afterSame (.reviseTxn (s := s.enterEngine .send) hx rfl))
  · split
    · exact hs.withdraws (.enterOff s)
    · exact hs.same

theorem execRequestByte (hs : s.OffersMatch) {b : Byte} {t : State} (h : execRequestByte b s = .next t) :
    t.OffersMatch := by
  refine ofRunning hs ?_ h
  split
  · exact hs.withdraws (.assemble b _ s)
  · exact hs

theorem execResponseByteBegin (hs : s.OffersMatch) {t : State} (h : execResponseByteBegin s = .next t) :
    t.OffersMatch := by
  refine ofRunning hs ?_ h
  split
  · exact hs.same
  · exact hs

theorem execResponseByteRead (hs : s.OffersMatch) {t : State} (h : execResponseByteRead s = .next t) :
    t.OffersMatch := by
  refine ofRunning hs ?_ h
  split
  · exact hs.withdraws (State.Withdraws.sendByte _ s).andSame
  · exact hs.same
  · exact hs

/-- Every command keeps the Offer List in agreement with the leases. -/
theorem exec (hs : s.OffersMatch) {c : Instr} {t : State} (h : exec c s = .next t) : t.OffersMatch := by
  cases c with
  | rstAssert => exact execRstAssert hs h
  | rstRise => exact execRstRise hs h
  | csFall => exact execCsFall hs h
  | accessByte b => exact ofRunning hs (hs.withdraws (.cond .same (.refl s))) h
  | requestByte b => exact execRequestByte hs h
  | csRise => exact execCsRise hs h
  | responseByteRead => exact execResponseByteRead hs h
  | badFrame => exact ofHead hs (fun e _ hu => hu.withdraws (.badFrameRequest e _)) h
  | unknownRequest => exact ofHead hs (fun e _ hu => hu.withdraws (.unknownRequestAnswer e _)) h
  | echo => exact ofWithdrawal hs .echoRequest h
  | readEngine => exact ofWithdrawal hs .readEngineRequest h
  | configure => exact ofWithdrawal hs .configureRequest h
  | readConfig => exact ofWithdrawal hs .readConfigRequest h
  | enable => exact ofWithdrawal hs .enableRequest h
  | disable => exact ofWithdrawal hs .disableRequest h
  | resetTrunk =>
    exact ofRequest hs (fun _ _ _ hu => hu.withdraws (State.Withdraws.resetTrunk fun n => (hu.offersExact.2 n).mpr).andSame) h
  | reset => exact ofWithdrawal hs .resetRequest h
  | causeControl => exact ofWithdrawal hs .causeControlRequest h
  | readCauses => exact ofWithdrawal hs .readCausesRequest h
  | readChanges => exact ofWithdrawal hs .readChangesRequest h
  | readSlot => exact ofWithdrawal hs .readSlotRequest h
  | lookupIdentity => exact ofWithdrawal hs .lookupIdentityRequest h
  | lookupAddress => exact ofWithdrawal hs .lookupAddressRequest h
  | setFields => exact ofWithdrawal hs .setFieldsRequest h
  | pin => exact ofWithdrawal hs .pinRequest h
  | retireForced => exact ofWithdrawal hs .retireForcedRequest h
  | retireGraceful => exact ofWithdrawal hs .retireGracefulRequest h
  | ringMove => exact ofWithdrawal hs .ringMoveRequest h
  | setEnrolMode => exact ofWithdrawal hs .setEnrolModeRequest h
  | admitAdd => exact ofWithdrawal hs .admitAddRequest h
  | admitRemove => exact ofWithdrawal hs .admitRemoveRequest h
  | admitClear => exact ofWithdrawal hs .admitClearRequest h
  | admitRead => exact ofWithdrawal hs .admitReadRequest h
  | pollControl => exact ofWithdrawal hs .pollControlRequest h
  | pollRound => exact ofWithdrawal hs .pollRoundRequest h
  | censusStart => exact ofWithdrawal hs .censusStartRequest h
  | censusStop => exact ofWithdrawal hs .censusStopRequest h
  | censusStep => exact ofWithdrawal hs .censusStepRequest h
  | censusStatus => exact ofWithdrawal hs .censusStatusRequest h
  | relay => exact ofWithdrawal hs .relayRequest h
  | relayCancel => exact ofWithdrawal hs .relayCancelRequest h
  | tick => exact ofRunning hs (hs.withdraws (.tickEvent s)) h
  | secondsStrobe => exact ofRunning hs (hs.withdraws (.secondsEvent s)) h
  | paceExpiry => exact ofRunning hs (hs.withdraws (.paceEvent s)) h
  | solicitExpiry => exact ofRunning hs (hs.withdraws (.solicitEvent s)) h
  | censusStepExpiry => exact ofRunning hs (hs.withdraws (.censusStepEvent s)) h
  | trunkFaultRising => exact execTrunkFaultRising hs h
  | trunkFaultFalling => exact execTrunkFaultFalling hs h
  | faultDrop => exact ofRunning hs (hs.withdraws (.dropEvent s)) h
  | grant => exact ofRunning hs (hs.withdraws (.cond (.arbitrate s) (.refl s))) h
  | frameSent => exact execFrameSent hs h
  | characterReceived data flag parity stop => exact ofRunning hs (receiveCharacter hs _) h
  | replyIdleTimeout => exact ofRunning hs (idleTimeout hs) h
  | replyWindowTimeout => exact ofRunning hs (hs.withdraws (.windowTimeout s)) h
  | solicitListenEnd => exact ofRunning hs (listenTimeout hs) h
  | guardEnd => exact execGuardEnd hs h
  | startBit began middle =>
    exact ofRunning (f := fun u => if middle then u else u.startCharacter began) hs
      (cond (fun _ => hs) fun _ => startCharacter hs began) h
  | responseByteBegin => exact execResponseByteBegin hs h

/-- Every step keeps the Offer List in agreement with the leases. -/
theorem step (hs : s.OffersMatch) {t : State} (h : step s = .next t) : t.OffersMatch := by
  unfold Machine.step at h
  split at h
  · next c rest hq => exact exec (s := { s with pending := rest }) hs.same h
  · unfold idleStep at h
    split at h
    · cases h
      exact hs
    · split at h
      · exact exec hs h
      · cases h
        exact hs.withdraws (.refclkPeriod s)

end State.OffersMatch

/-- Settles O56: a listen's results add the offers, with none standing before, and everything else withdraws some at most. -/
theorem everyStepKeepsTheOfferList : Obligations.EveryStepKeepsTheOfferList :=
  fun _ _ hs h => State.OffersMatch.step hs h

end Sys2Proof.Machine

/-! ## The requests of the Enrolment Unit (4.1, 4.4) -/
namespace Sys2Proof.Machine
set_option Elab.async false

/-! ### SET_ENROL_MODE (R74) -/

/-- A byte above 2 names no enrolment mode (Table 9-7). -/
theorem EnrolMode.ofCode_none {m : Byte} (h : 2 < m.toNat) : EnrolMode.ofCode m = none := by
  have other (n : Nat) (hn : n ≤ 2) : m ≠ BitVec.ofNat 8 n := by
    rintro rfl
    rw [BitVec.toNat_ofNat] at h
    omega
  simp [EnrolMode.ofCode, other 0, other 1, other 2]

theorem EnrolMode.ofCode_code (mode : EnrolMode) : EnrolMode.ofCode mode.code = some mode := by
  cases mode <;> rfl

/-- Settles O26: a mode's byte is its own code, and any other byte is refused. -/
theorem setEnrolModeChangesTheMode : Obligations.SetEnrolModeChangesTheMode := by
  refine ⟨rfl, fun s k tag m rest h => ⟨fun hm => ?_, ?_⟩⟩
  · rw [exec_setEnrolMode h]
    simp only [setEnrolModeRequest, EnrolMode.ofCode_none hm]
    rfl
  · rintro mode rfl due
    have hdue : (if mode = .closed then false else s.enrol.solicitDue) = due := by
      by_cases hc : mode = .closed <;> simp [due, hc]
    rw [exec_setEnrolMode h]
    simp only [setEnrolModeRequest, EnrolMode.ofCode_code, State.popped_enrol, hdue]
    rfl

/-! ### The Admission List (R87 to R89) -/

/-- The index of an identity that first stands here. -/
theorem idxOf_append_cons {x : Identity} {before after : List Identity} (hx : x ∉ before) :
    (before ++ x :: after).idxOf x = before.length := by
  rw [List.idxOf_append_of_notMem hx, List.idxOf_cons_self, Nat.add_zero]

section Lists
variable {s : State} {tag b0 b1 b2 b3 b4 b5 : Byte} {before after : List Identity}

theorem admitAddRequest_held (hl : s.enrol.admission = before ++ identityOf b0 b1 b2 b3 b4 b5 :: after)
    (hx : identityOf b0 b1 b2 b3 b4 b5 ∉ before) :
    admitAddRequest tag [b0, b1, b2, b3, b4, b5] s = s.answer .admitAdd tag .duplicate [byteOf before.length] := by
  simp [admitAddRequest, hl, idxOf_append_cons hx]

/-- An identity that the list does not hold is refused by a full list, and appended to another. -/
theorem admitAddRequest_unknown (hx : identityOf b0 b1 b2 b3 b4 b5 ∉ s.enrol.admission) :
    admitAddRequest tag [b0, b1, b2, b3, b4, b5] s =
      if 32 ≤ s.enrol.admission.length then s.answer .admitAdd tag .full [byteOf s.enrol.admission.length]
      else (s.setAdmission (s.enrol.admission ++ [identityOf b0 b1 b2 b3 b4 b5])).answer .admitAdd tag .ok
        [byteOf s.enrol.admission.length, byteOf (s.enrol.admission.length + 1)] := by
  simp [admitAddRequest, hx]

theorem admitRemoveRequest_unknown (hx : identityOf b0 b1 b2 b3 b4 b5 ∉ s.enrol.admission) :
    admitRemoveRequest tag [b0, b1, b2, b3, b4, b5] s =
      s.answer .admitRemove tag .notFound [byteOf s.enrol.admission.length] := by
  simp [admitRemoveRequest, hx]

/-- The identity's entry goes, and those after it move up by one. -/
theorem admitRemoveRequest_held (hl : s.enrol.admission = before ++ identityOf b0 b1 b2 b3 b4 b5 :: after)
    (hx : identityOf b0 b1 b2 b3 b4 b5 ∉ before) : admitRemoveRequest tag [b0, b1, b2, b3, b4, b5] s =
      (s.setAdmission (before ++ after)).answer .admitRemove tag .ok
        [byteOf before.length, byteOf (s.enrol.admission.length - 1)] := by
  have gap : (before ++ identityOf b0 b1 b2 b3 b4 b5 :: after).eraseIdx before.length = before ++ after := by
    rw [List.eraseIdx_append_of_length_le (Nat.le_refl _), Nat.sub_self, List.eraseIdx_cons_zero]
  simp [admitRemoveRequest, hl, idxOf_append_cons hx, gap]

/-- ADMIT_READ of an index below 32, by what stands there. -/
theorem admitReadRequest_index {i : Byte} (hi : i.toNat ≤ 31) : admitReadRequest tag [i] s =
    match s.enrol.admission[i.toNat]? with
    | some x => s.answer .admitRead tag .ok (identityBytes x ++ [byteOf s.enrol.admission.length])
    | none => s.answer .admitRead tag .notFound [byteOf s.enrol.admission.length] := if_neg (Nat.not_lt.mpr hi)

end Lists

/-- Settles O27: each request by its own checks. -/
theorem admissionListRequests : Obligations.AdmissionListRequests := by
  intro s k tag rest list with_
  refine ⟨fun b0 b1 b2 b3 b4 b5 h => ⟨fun before after hl hx => ?_, fun hx hfull => ?_, fun hx hroom => ?_⟩,
    fun b0 b1 b2 b3 b4 b5 h => ⟨fun hx => ?_, fun before after hl hx => ?_⟩, fun h => exec_admitClear h,
    fun i h => ⟨fun hi => ?_, fun hi hend => ?_, fun hi x hx => ?_⟩⟩
  · rw [exec_admitAdd h, admitAddRequest_held (s := s.popped rest) hl hx]
    rfl
  · rw [exec_admitAdd h, admitAddRequest_unknown (s := s.popped rest) hx]
    exact congrArg _ (if_pos hfull)
  · rw [exec_admitAdd h, admitAddRequest_unknown (s := s.popped rest) hx]
    exact congrArg _ (if_neg (Nat.not_le.mpr hroom))
  · rw [exec_admitRemove h, admitRemoveRequest_unknown (s := s.popped rest) hx]
    rfl
  · rw [exec_admitRemove h, admitRemoveRequest_held (s := s.popped rest) hl hx]
    rfl
  · rw [exec_admitRead h]
    exact congrArg _ (if_pos hi)
  · rw [exec_admitRead h, admitReadRequest_index hi, State.popped_enrol, List.getElem?_eq_none hend]
    rfl
  · rw [exec_admitRead h, admitReadRequest_index hi, State.popped_enrol, hx]
    rfl

end Sys2Proof.Machine

/-! ## JOINs and the outcomes of OFFERs (4.3, 4.5) -/
namespace Sys2Proof.Machine
set_option Elab.async false

/-! ### A JOIN by its identity (Table 4-2) -/

section Joins
variable {s : State} {j : Join} {n : Slot} {l : Lease}

/-- A JOIN whose identity a lease holds. -/
theorem takeJoin_known (hu : s.IdentitiesUnique) (hl : s.lease n = some l) (hx : l.identity = j.identity) :
    s.takeJoin j =
      match l.status with
      | .releasing _ => s
      | .reserved => s.rejoin n l .reserved j
      | .lost _ => s.rejoin n l .lost j
      | .bound _ _ => ((s.rejoin n l .lost j).leaveRing n).pollSettle
      | .suspect _ _ => ((s.rejoin n l .lost j).leaveRing n).pollSettle
      | .offered _ => s := by
  cases hst : l.status with
  | _ => simp only [State.takeJoin, findIdentity_some hu hl hx, hl, hst]

/-- A JOIN whose identity no lease holds. -/
theorem takeJoin_unknown (hx : ∀ n : Slot, ∀ l ∈ s.lease n, l.identity ≠ j.identity) : s.takeJoin j = s.newcomer j := by
  unfold State.takeJoin
  simp only [findIdentity_none hx]

/-- OPEN admits every identity and LISTED those of the Admission List (R82). -/
theorem admits_iff {x : Identity} : s.admits x = true ↔
    s.enrol.mode = .opened ∨ (s.enrol.mode = .listed ∧ x ∈ s.enrol.admission) := by
  unfold State.admits
  cases s.enrol.mode <;> simp

/-- An identity that is not admitted is refused. -/
theorem newcomer_refused (h : ¬ s.admits j.identity = true) : s.newcomer j = s.raise .refused :=
  if_pos (Bool.eq_false_of_not_eq_true h)

/-- An admitted identity takes the slot and the address that are found, in this order. -/
theorem newcomer_admitted (h : s.admits j.identity = true) : s.newcomer j =
    match s.freeSlot, s.chooseAddress j.hint with
    | none, _ => s.raise .tableFull
    | some _, none => s.raise .poolEmpty
    | some n, some a =>
      (s.createLease n (newLease (.offered .fresh) j.identity a (some j.cls) .joined)).addOffer n := by
  unfold State.newcomer
  rw [if_neg (by simp [h])]
  cases s.freeSlot with
  | none => rfl
  | some n => cases s.chooseAddress j.hint <;> rfl

end Joins

/-- Settles O47: the rows of Table 4-2 by what the identity finds. -/
theorem joinsAreClassifiedByIdentity : Obligations.JoinsAreClassifiedByIdentity := by
  refine fun s j hu _ => ⟨fun n l hl hx => ?_, fun hx => ?_⟩
  · have known := takeJoin_known hu hl hx
    refine ⟨fun term hst => ?_, fun hst => ?_, fun q hst => ?_, fun hbound => ?_⟩
    · rw [known, hst]
    · rw [known, hst]
      rfl
    · rw [known, hst]
      rfl
    · cases hst : l.status with
      | bound term miss =>
        rw [known, hst]
        rfl
      | suspect term miss =>
        rw [known, hst]
        rfl
      | _ => simp [isBound, hst] at hbound
  · rw [takeJoin_unknown hx]
    dsimp only
    rw [← admits_iff]
    refine ⟨fun h => newcomer_refused h, fun h hfull => ?_, fun h hroom hnone => ?_, fun h n hn hlow a ha hchoice => ?_⟩
    · rw [newcomer_admitted h, freeSlot_none hfull]
      rfl
    · have hslot : s.freeSlot ≠ none := by
        obtain ⟨n, hn⟩ := hroom
        exact fun e => by simpa [hn] using List.find?_eq_none.mp e n (List.mem_finRange n)
      obtain ⟨n, hn⟩ := Option.ne_none_iff_exists'.mp hslot
      rw [newcomer_admitted h, hn, chooseAddress_none hnone]
      rfl
    · have chosen : s.chooseAddress j.hint = some a := by
        rcases hchoice with hhint | ⟨hother, hlowest⟩
        · exact chooseAddress_hint hhint ha
        · exact chooseAddress_lowest hother ha hlowest
      rw [newcomer_admitted h, freeSlot_some hn hlow, chosen]
      rfl

/-! ### The outcome of an OFFER (R92 to R96) -/

section Outcomes
variable {s : State} {t : Txn} {n : Slot} {x : Identity} {l : Lease}

/-- A completion finds the lease in the captured slot when it has the captured identity and address (R7). -/
theorem matched_iff {a : TrunkAddress} :
    s.matched n x a = some l ↔ s.lease n = some l ∧ l.identity = x ∧ .station l.address = a := by
  unfold State.matched
  cases hk : s.lease n with
  | none => simp
  | some k =>
    simp only [Option.ite_none_right_eq_some, Option.some.injEq]
    constructor
    · rintro ⟨⟨hx, ha⟩, rfl⟩
      exact ⟨rfl, hx, ha⟩
    · rintro ⟨rfl, hx, ha⟩
      exact ⟨⟨hx, ha⟩, rfl⟩

/-- The lease that an OFFER captured, OFFERED still. -/
theorem offeredLease_captured {a : TrunkAddress} {prior : Prior} (hl : s.lease n = some l) (hx : l.identity = x)
    (ha : .station l.address = a) (hst : l.status = .offered prior) : s.offeredLease n x a = some l := by
  simp only [State.offeredLease, matched_iff.mpr ⟨hl, hx, ha⟩, hst]

/-- Any other lease is not found. -/
theorem offeredLease_other {a : TrunkAddress}
    (h : ∀ l ∈ s.lease n, l.identity ≠ x ∨ .station l.address ≠ a ∨ isOffered (some l) = false) :
    s.offeredLease n x a = none := by
  unfold State.offeredLease
  split
  · next l hm =>
    obtain ⟨hl, hx, ha⟩ := matched_iff.mp hm
    split
    · next prior hst =>
      have hoffered : isOffered (some l) = true := isOffered_iff.mpr ⟨l, prior, rfl, hst⟩
      rcases h l hl with hne | hne | hne
      · exact absurd hx hne
      · exact absurd ha hne
      · exact absurd (hoffered.symm.trans hne) nofun
    · rfl
  · rfl

/-- An OFFER's outcome, by the lease it finds. -/
theorem txnDone_offer (hk : t.kind = .offer) (hn : t.slot = some n) (hx : t.identity = some x) (o : AttemptOutcome) :
    s.txnDone t o =
      match s.offeredLease n x t.address, o with
      | none, _ => s
      | some l, .good => s.bindOffer n l
      | some _, .lineFault => s
      | some _, _ => s.abandonOffer n s.offerQuarantine := by
  simp only [State.txnDone, hk, State.offerDone, hn, hx]
  cases s.offeredLease n x t.address with
  | none => rfl
  | some l => cases o <;> rfl

end Outcomes

/-- Settles O48: the outcome goes to the lease that the OFFER captured, if it is OFFERED still. -/
theorem offerOutcomeBindsOrAbandons : Obligations.OfferOutcomeBindsOrAbandons := by
  refine fun s t n x o hk hn hx => ⟨fun l prior hl hid ha hst => ?_, fun h => ?_⟩
  · have found := offeredLease_captured hl hid ha hst
    have done := txnDone_offer (s := s) hk hn hx
    simp only [found] at done
    have abandoned (h : o = .noReply ∨ ∃ r, o = .garbled r) : s.txnDone t o = s.abandonOffer n s.offerQuarantine := by
      rcases h with rfl | ⟨r, rfl⟩ <;> exact done _
    refine ⟨?good, ?fresh, ?reserved, ?lost, ?fault⟩
    case good =>
      rintro rfl
      rw [done]
      rfl
    case fault =>
      rintro rfl
      exact done _
    all_goals
      rintro h rfl
      rw [abandoned h]
      simp only [State.abandonOffer, hl, hst]
      rfl
  · rw [txnDone_offer hk hn hx, offeredLease_other h]

end Sys2Proof.Machine

/-! ## The Poll Ring against the leases (5.1)

A slot joins the Poll Ring in the change that makes its lease BOUND or SUSPECT, and leaves it in the change that ends that. Each
operation is therefore taken whole, and one relation says that it keeps the ring and the leases in agreement. -/
namespace Sys2Proof.Machine
set_option Elab.async false

/-- From `s` to `t` the agreement of the Poll Ring with the leases is kept. -/
def State.KeepsRing (s t : State) : Prop := s.RingMatches → t.RingMatches

/-- Whether a slot is BOUND or SUSPECT, read from the state of its lease. -/
theorem lease_isBound {s : State} {n : Slot} {l : Lease} {st : LeaseStatus} {b : Bool} (hl : s.lease n = some l)
    (hst : l.status = st) (h : isBound (some { l with status := st }) = b := by rfl) : isBound (s.lease n) = b := by
  subst hst
  rw [hl]
  exact h

/-- A FREE slot is not bound. -/
theorem lease_unbound {s : State} {n : Slot} (hl : s.lease n = none) : isBound (s.lease n) = false := by
  rw [hl]
  rfl

/-- The status alone says whether a lease is bound. -/
theorem isBound_congr {l k : Lease} (h : k.status = l.status) : isBound (some k) = isBound (some l) := by
  simp only [isBound, h]

/-- The lease of an OFFER's completion is OFFERED in its slot. -/
theorem offeredLease_eq_some {s : State} {n : Slot} {x : Identity} {a : TrunkAddress} {l : Lease}
    (h : s.offeredLease n x a = some l) : s.lease n = some l ∧ ∃ prior, l.status = .offered prior := by
  unfold State.offeredLease at h
  split at h
  · next hm =>
    split at h
    · next prior hst =>
      cases h
      exact ⟨matched_eq_some hm, prior, hst⟩
    · cases h
  · cases h

/-- A member is placed among the others, which keep their order. -/
theorem insertBefore_perm (m : RingMember) (anchor : Option Slot) (ring : List RingMember) :
    (insertBefore m anchor ring).Perm (m :: ring) := by
  induction ring with
  | nil => cases anchor <;> exact .refl _
  | cons k ks ih =>
    cases anchor with
    | none => exact List.perm_append_singleton m (k :: ks)
    | some a =>
      unfold insertBefore
      split
      · exact .refl _
      · exact (ih.cons k).trans (.swap m k ks)

/-- A move leaves the ring its members. -/
theorem moveMember_perm {p : Scheduler} (hp : p.slots.Nodup) (n : Slot) (anchor : Option Slot) :
    ((moveMember n anchor p.ring).map (fun m => m.slot)).Perm p.slots := by
  unfold moveMember
  split
  · exact .refl _
  · next m hm =>
    obtain rfl : m.slot = n := by simpa using List.find?_some hm
    have hmem : m.slot ∈ p.slots := List.mem_map_of_mem (List.mem_of_find?_eq_some hm)
    have hothers : (p.ring.filter (fun k => k.slot ≠ m.slot)).map (fun k => k.slot) = p.slots.erase m.slot := by
      rw [hp.erase_eq_filter, Scheduler.slots, List.filter_map]
      congr 1
      exact List.filter_congr fun k _ => by simp [bne, Bool.beq_eq_decide_eq]
    have placed := (insertBefore_perm m anchor (p.ring.filter (fun k => k.slot ≠ m.slot))).map (fun k => k.slot)
    rw [List.map_cons, hothers] at placed
    exact placed.trans (List.perm_cons_erase hmem).symm

namespace State.KeepsRing

/-- The ring keeps its members, in whatever order, and each slot stays bound or unbound. -/
theorem spare {s t : State} (hl : ∀ n, isBound (t.lease n) = isBound (s.lease n))
    (hp : s.poll.slots.Nodup → t.poll.slots.Perm s.poll.slots) : s.KeepsRing t := by
  rintro ⟨hnodup, hmem⟩
  have hperm := hp hnodup
  exact ⟨hperm.nodup_iff.mpr hnodup, fun n => by rw [hperm.mem_iff, hmem, hl]⟩

/-- A change of other blocks alone, or of the scheduler but for its ring. -/
theorem same {s t : State} (h : t.table.slots = s.table.slots ∧ t.poll.slots = s.poll.slots := by exact ⟨rfl, rfl⟩) :
    s.KeepsRing t := spare (fun n => by simp only [State.lease, h.1]) fun _ => .of_eq h.2

theorem refl (s : State) : s.KeepsRing s := id

theorem trans {s t u : State} (h : s.KeepsRing t) (k : t.KeepsRing u) : s.KeepsRing u := k ∘ h

/-- Other blocks may change after. -/
theorem andSame {s t u : State} (h : s.KeepsRing t)
    (k : u.table.slots = t.table.slots ∧ u.poll.slots = t.poll.slots := by exact ⟨rfl, rfl⟩) : s.KeepsRing u :=
  h.trans (same k)

/-- Other blocks may change before. -/
theorem afterSame {s t u : State} (h : t.KeepsRing u)
    (k : t.table.slots = s.table.slots ∧ t.poll.slots = s.poll.slots := by exact ⟨rfl, rfl⟩) : s.KeepsRing u :=
  (same k).trans h

/-- A cause flag may be set after. -/
theorem andRaise {s t : State} {c : Cause} (h : s.KeepsRing t) : s.KeepsRing (t.raise c) := h.andSame

/-- One of two changes, by a condition. -/
theorem cond {s t u : State} {c : Prop} [Decidable c] (h : s.KeepsRing t) (k : s.KeepsRing u) :
    s.KeepsRing (if c then t else u) := by
  split
  · exact h
  · exact k

theorem foldl {α : Type} {f : State → α → State} (h : ∀ (s : State) (a : α), s.KeepsRing (f s a)) (xs : List α)
    (s : State) : s.KeepsRing (xs.foldl f s) := by
  induction xs generalizing s with
  | nil => exact refl s
  | cons x xs ih => exact (h s x).trans (ih _)

/-- One slot is written that stays bound or unbound. -/
theorem write {s t : State} {n : Slot} {o : Option Lease} (hl : ∀ m, t.lease m = if m = n then o else s.lease m)
    (ho : isBound (s.lease n) = isBound o) (hp : t.poll.slots = s.poll.slots := by rfl) : s.KeepsRing t := by
  refine spare (fun m => ?_) fun _ => .of_eq hp
  rw [hl]
  split
  · next e => rw [e, ho]
  · rfl

/-- A walk keeps the members in order and writes cadence counts alone. -/
theorem ofWalk {s t : State} (h : s.WalksTo t) : s.KeepsRing t := by
  obtain ⟨-, -, -, -, -, -, -, -, -, -, -, -, hslots, -, -⟩ := h.frame
  obtain ⟨counts, hl⟩ := h.lease
  refine spare (fun n => ?_) fun _ => .of_eq hslots
  rw [hl]
  cases s.lease n <;> rfl

/-- A slot that was not bound becomes so, and joins the ring (R99). -/
theorem join {s t : State} {n : Slot} {o : Option Lease} (hn : isBound (s.lease n) = false)
    (hl : ∀ m, t.lease m = if m = n then o else s.lease m) (ho : isBound o = true := by rfl)
    (hp : t.poll.slots = s.poll.slots := by rfl) : s.KeepsRing (t.joinRing n) := by
  refine trans (fun ⟨hnodup, hmem⟩ => ?_) (ofWalk (.joinRing n t))
  have hslots : (t.poll.ring ++ [(⟨n, false⟩ : RingMember)]).map (fun m => m.slot) = s.poll.slots ++ [n] := by
    rw [List.map_append, List.map_singleton, ← hp, Scheduler.slots]
  have hout : n ∉ s.poll.slots := by simp [hmem, hn]
  refine ⟨?_, fun m => ?_⟩
  · show (List.map _ _).Nodup
    rw [hslots]
    exact hnodup.append (List.nodup_singleton n) (List.disjoint_singleton.mpr hout)
  · show m ∈ List.map _ _ ↔ isBound (t.lease m) = true
    rw [hslots, List.mem_append, hmem, List.mem_singleton, hl]
    split
    · next e => simp [e, ho]
    · next e => simp [e]

/-- A slot is not bound after, and leaves the ring, if it was there (R99). -/
theorem leave {s t : State} {n : Slot} {o : Option Lease} (hl : ∀ m, t.lease m = if m = n then o else s.lease m)
    (ho : isBound o = false := by rfl) (hp : t.poll.slots = s.poll.slots := by rfl) : s.KeepsRing (t.leaveRing n) := by
  rintro ⟨hnodup, hmem⟩
  have hslots : (t.leaveRing n).poll.slots = s.poll.slots.filter (fun m => decide (m ≠ n)) := by
    rw [State.leaveRing_slots, hp]
  refine ⟨?_, fun m => ?_⟩
  · rw [hslots]
    exact hnodup.filter _
  · rw [hslots, List.mem_filter, hmem, State.leaveRing_lease, hl]
    split
    · next e => simp [e, ho]
    · next e => simp [e]

/-! ### The walk, and the loss of a lease -/

theorem pollSettle (s : State) : s.KeepsRing s.pollSettle := ofWalk (.pollSettle s)

theorem loseLease (n : Slot) (l : Lease) (q : Nat) (s : State) : s.KeepsRing (s.loseLease n l q) :=
  leave (State.changeStatus_lease n l (.lost q) s)

theorem abandonOffer (n : Slot) (q : Nat) (s : State) : s.KeepsRing (s.abandonOffer n q) := by
  unfold State.abandonOffer
  split
  · exact same
  · next l hl =>
    split
    · next hst => exact (write (State.vacate_lease n l q s) (lease_isBound hl hst)).andSame
    · next hst => exact (write (State.changeStatus_lease n l .reserved s) (lease_isBound hl hst)).andSame
    · next hst => exact (write (State.changeStatus_lease n l (.lost q) s) (lease_isBound hl hst)).andSame
    · exact same

theorem countAttempt (n : Slot) (x : Identity) (a : TrunkAddress) (bad : Bool) (s : State) :
    s.KeepsRing (s.countAttempt n x a bad) := by
  unfold State.countAttempt
  split
  · exact refl s
  · next l hm =>
    have counted (k : Lease) (hk : l.status = k.status) : s.KeepsRing (s.putLease n (some k)) :=
      write (State.putLease_lease n _ s) (by rw [matched_eq_some hm, isBound_congr hk])
    refine cond (cond (andRaise (cond ?_ (andSame (t := State.putLease n _ s) ?_)))
      (cond ?_ (andSame (t := State.putLease n _ s) ?_))) ?_
    all_goals exact counted _ rfl

/-! ### Polling -/

/-- A renewed lease is bound before and after (R115). -/
theorem renew {n : Slot} {s : State} (h : isBound (s.lease n) = true) (l : Lease) (wasSuspect : Bool) (w : Half) :
    s.KeepsRing (s.renew n l wasSuspect w) := by
  have stored : s.KeepsRing (s.storeStatus n { l with status := .bound (s.params.leaseTerm * 4) 0 } w) :=
    cond (write (State.putLease_lease n (some _) s) h) (write (State.putLease_lease n (some _) s) h)
  exact cond stored.andSame stored

/-- A lease that a miss does not end stays bound (R117). -/
theorem countMiss {n : Slot} {s : State} (h : isBound (s.lease n) = true) (l : Lease) (term miss : Nat)
    (wasSuspect : Bool) : s.KeepsRing (s.countMiss n l term miss wasSuspect) :=
  cond (loseLease n l _ s) (cond (write (State.putLease_lease n _ s) h)
    (cond (write (State.changeStatus_lease n l _ s) h) (write (State.putLease_lease n _ s) h)))

theorem pollEffect (t : Txn) (o : AttemptOutcome) (s : State) : s.KeepsRing (s.pollEffect t o) := by
  unfold State.pollEffect
  split
  · split
    · exact refl s
    · next l hm =>
      have hl := matched_eq_some hm
      split
      · next hst => exact renew (lease_isBound hl hst) _ _ _
      · next hst => exact renew (lease_isBound hl hst) _ _ _
      · next hst => exact countMiss (lease_isBound hl hst) _ _ _ _
      · next hst => exact countMiss (lease_isBound hl hst) _ _ _ _
      · next hst => exact countMiss (lease_isBound hl hst) _ _ _ _
      · next hst => exact countMiss (lease_isBound hl hst) _ _ _ _
      · exact refl s
  · exact refl s

theorem pollTaken (n : Slot) (s : State) : s.KeepsRing (s.pollTaken n) := by
  unfold State.pollTaken
  split
  · exact cond (afterSame (ofWalk (.markVisited n _))) same
  · exact same

theorem pollDone (t : Txn) (o : AttemptOutcome) (s : State) : s.KeepsRing (s.pollDone t o) := by
  unfold State.pollDone
  split
  · exact ((pollEffect t o s).trans (pollTaken _ _)).trans (pollSettle _)
  · exact refl s

theorem setPollMode (mode : PollMode) (s : State) : s.KeepsRing (s.setPollMode mode) :=
  cond (refl s) (cond same (cond (afterSame (ofWalk (.beginRound _))) same))

theorem pollControlRequest (tag : Byte) (args : List Byte) (s : State) :
    s.KeepsRing (pollControlRequest tag args s) := by
  unfold Machine.pollControlRequest
  split
  · split
    · exact same
    · exact (setPollMode _ s).andSame
  · exact same

theorem pollRoundRequest (tag : Byte) (args : List Byte) (s : State) : s.KeepsRing (pollRoundRequest tag args s) := by
  unfold Machine.pollRoundRequest
  split
  · exact cond same (cond same (ofWalk (.beginRound s)).andSame)
  · exact same

/-- A member that moves stays a member (R101). -/
theorem ringMoveRequest (tag : Byte) (args : List Byte) (s : State) : s.KeepsRing (ringMoveRequest tag args s) := by
  unfold Machine.ringMoveRequest
  split
  · split
    · exact cond same (cond same (cond same (spare (fun _ => rfl) fun hp => moveMember_perm hp _ _)))
    · exact same
  · exact same

/-! ### Census -/

theorem walkOrWait (s : State) : s.KeepsRing s.walkOrWait := by
  unfold State.walkOrWait
  split
  · exact same
  · split <;> exact same

theorem censusWalk (s : State) : s.KeepsRing s.censusWalk := cond (afterSame (walkOrWait _)) (walkOrWait s)

theorem offerRelease (a : Address) (r : ReleaseReason) (s : State) : s.KeepsRing (s.offerRelease a r) :=
  cond same (cond same same)

theorem conflictAt (a : Address) (s : State) : s.KeepsRing (s.conflictAt a) := (offerRelease a .conflict s).andRaise

/-- A LOST lease becomes BOUND and its slot joins the ring (R140). -/
theorem rebind {n : Slot} {s : State} (h : isBound (s.lease n) = false) (l : Lease) (q : Nat) (a : Address) (cls : Byte)
    (units : Nat) : s.KeepsRing (s.rebind n l q a cls units) := by
  have bound {t : State} (hl : ∀ m, t.lease m = s.lease m) (ht : t.poll = s.poll) :
      s.KeepsRing (((t.changeStatus n (rebound l a cls) (.bound (4 * units) 0)).countAdopted).joinRing n) :=
    join h (fun m => by
      rw [← hl m]
      exact State.changeStatus_lease n _ _ t m) rfl (congrArg Scheduler.slots ht)
  unfold State.rebind
  dsimp only
  split
  · exact bound (fun _ => rfl) rfl
  · exact bound (fun _ => rfl) rfl

theorem adopt (x : Identity) (a : Address) (cls : Byte) (units : Nat) (s : State) :
    s.KeepsRing (s.adopt x a cls units) := by
  unfold State.adopt
  split
  · next n hn =>
    exact join (t := (s.createLease n (newLease (.bound (4 * units) 0) x a (some cls) .adopted)).countAdopted)
      (lease_unbound (freeSlot_eq_some hn)) (State.createLease_lease n _ s)
  · exact same

theorem takeAnswer (a : Address) (x : Identity) (cls : Byte) (units : Nat) (s : State) :
    s.KeepsRing (s.takeAnswer a x cls units) := by
  unfold State.takeAnswer
  split
  · split
    · exact refl s
    · next l hl =>
      split
      · split
        · next hst => exact rebind (lease_isBound hl hst) _ _ _ _ _
        · exact refl s
      · split
        · exact offerRelease _ _ s
        · next hst => exact cond (conflictAt a s) (rebind (lease_isBound hl hst) _ _ _ _ _)
        · exact conflictAt a s
  · exact cond (conflictAt a s) (adopt x a cls units s)

theorem judgeProbe (a : Address) (o : AttemptOutcome) (payload : List Byte) (s : State) :
    s.KeepsRing (s.judgeProbe a o payload) := by
  cases o with
  | good => exact cond (refl s) (takeAnswer _ _ _ _ s)
  | noReply => exact refl s
  | garbled r => exact (offerRelease a .clash s).andRaise
  | lineFault => exact refl s

theorem probeTaken (s : State) : s.KeepsRing s.probeTaken := by
  unfold State.probeTaken
  dsimp only
  split
  · exact cond (afterSame (censusWalk _)) same
  all_goals exact afterSame (censusWalk _)

theorem probeDone (t : Txn) (o : AttemptOutcome) (s : State) : s.KeepsRing (s.probeDone t o) := by
  unfold State.probeDone
  split
  · have judged := judgeProbe ‹Address› o (t.reply.getD []) s
    dsimp only
    split
    · exact cond (judged.trans (probeTaken _)) judged.andSame
    · exact judged.andSame
  · exact refl s

theorem beginSweep (first last : Address) (mode : CensusMode) (s : State) : s.KeepsRing (s.beginSweep first last mode) := by
  cases mode with
  | stepped => exact same
  | _ => exact afterSame (censusWalk _)

theorem takeStep (s : State) : s.KeepsRing s.takeStep := by
  unfold State.takeStep
  split
  · exact censusWalk s
  · exact same
  · exact refl s

theorem censusStartRequest (tag : Byte) (args : List Byte) (s : State) :
    s.KeepsRing (censusStartRequest tag args s) := by
  unfold Machine.censusStartRequest
  split
  · split
    · exact cond (beginSweep _ _ _ s).andSame (cond (beginSweep _ _ _ s).andSame same)
    · exact same
  · exact same

theorem censusStopRequest (tag : Byte) (args : List Byte) (s : State) : s.KeepsRing (censusStopRequest tag args s) := by
  unfold Machine.censusStopRequest
  split
  · exact (cond (refl s) (same (t := s.stopCensus))).andSame
  · exact same

theorem censusStepRequest (tag : Byte) (args : List Byte) (s : State) : s.KeepsRing (censusStepRequest tag args s) := by
  unfold Machine.censusStepRequest
  split
  · exact cond same (takeStep s).andSame
  · exact same

theorem timerStep (s : State) : s.KeepsRing s.timerStep := by
  unfold State.timerStep
  split
  · exact cond (takeStep s) (refl s)
  · exact cond (censusWalk s) (refl s)
  · exact refl s
  · exact refl s

/-! ### Enrolment -/

/-- A JOIN of an unknown identity takes a FREE slot, OFFERED (R82 to R84). -/
theorem newcomer (j : Join) (s : State) : s.KeepsRing (s.newcomer j) := by
  unfold State.newcomer
  split
  · exact same
  · split
    · exact same
    · next n hn =>
      split
      · exact same
      · exact write (State.createLease_lease n _ s) (lease_unbound (freeSlot_eq_some hn))

/-- A bound lease that joins again leaves the ring (Table 4-2). -/
theorem takeJoin (j : Join) (s : State) : s.KeepsRing (s.takeJoin j) := by
  unfold State.takeJoin
  split
  · exact newcomer j s
  · next n _ =>
    split
    · exact refl s
    · next l hl =>
      have left : s.KeepsRing ((s.rejoin n l .lost j).leaveRing n).pollSettle :=
        (leave (t := s.rejoin n l .lost j) (State.changeStatus_lease n _ _ s)).trans (pollSettle _)
      split
      · exact refl s
      · next hst => exact write (State.changeStatus_lease n _ _ s) (lease_isBound hl hst)
      · next hst => exact write (State.changeStatus_lease n _ _ s) (lease_isBound hl hst)
      · exact left
      · exact left
      · exact refl s

theorem takeResults (seen : List Identity) (results : List SubSlotResult) (s : State) :
    s.KeepsRing (s.takeResults seen results) := by
  induction results generalizing seen s with
  | nil => exact refl s
  | cons r rest ih =>
    cases r with
    | empty => exact ih seen s
    | collided => exact ih seen s
    | join j => exact cond (ih seen s) ((takeJoin j s).trans (ih _ _))

theorem evaluateSolicit (results : List SubSlotResult) (s : State) : s.KeepsRing (s.evaluateSolicit results) := by
  unfold State.evaluateSolicit
  split
  · exact refl s
  · exact takeResults [] results s
  · exact takeResults [] results s

/-- An accepted offer makes its lease BOUND, and its slot joins the ring (R92). -/
theorem offerDone (t : Txn) (o : AttemptOutcome) (s : State) : s.KeepsRing (s.offerDone t o) := by
  unfold State.offerDone
  split
  · next n x _ _ =>
    split
    · exact refl s
    · next l hm =>
      obtain ⟨hl, prior, hst⟩ := offeredLease_eq_some hm
      cases o with
      | good =>
        exact join (t := State.dropOffer n _) (lease_isBound hl hst)
          (State.changeStatus_lease n { l with cadenceCount := 1, lastStatus := none } _ s)
      | noReply => exact abandonOffer _ _ s
      | garbled r => exact abandonOffer _ _ s
      | lineFault => exact refl s
  · exact refl s

/-! ### Releases and relays -/

theorem endReleasing (n : Slot) (full : Bool) (s : State) : s.KeepsRing (s.endReleasing n full) := by
  unfold State.endReleasing
  split
  · next l hl =>
    split
    · next hst => exact write (State.vacate_lease n l _ s) (lease_isBound hl hst)
    · exact refl s
  · exact refl s

theorem completeRelease (t : Txn) (o : AttemptOutcome) (n : Slot) (tag : Byte) (a : Address) (s : State) :
    s.KeepsRing (s.completeRelease t o n tag a) := (cond (endReleasing n _ s) (refl s)).andSame

theorem releaseDone (t : Txn) (o : AttemptOutcome) (s : State) : s.KeepsRing (s.releaseDone t o) := by
  unfold State.releaseDone
  split
  · exact refl s
  · split
    · exact afterSame (completeRelease t o _ _ _ _)
    all_goals exact same

theorem relayDone (t : Txn) (o : AttemptOutcome) (s : State) : s.KeepsRing (s.relayDone t o) := by
  unfold State.relayDone
  split <;> exact same

/-- A lease that a forced RETIRE frees leaves the ring, if it was there (R22). -/
theorem retireNow (n : Slot) (l : Lease) (s : State) : s.KeepsRing (s.retireNow n l) :=
  ((leave (State.vacate_lease n l _ s)).andSame (u := State.dropOffer n _)).trans (pollSettle _)

theorem retireForcedRequest (tag : Byte) (args : List Byte) (s : State) :
    s.KeepsRing (retireForcedRequest tag args s) := by
  unfold Machine.retireForcedRequest
  split
  · split
    · exact same
    · refine cond same ?_
      split
      · exact same
      · split
        · exact same
        · exact (retireNow _ _ s).andSame
  · exact same

/-- A lease that a graceful RETIRE makes RELEASING leaves the ring (R149). -/
theorem retireByRelease (n : Slot) (l : Lease) (term : Nat) (tag : Byte) (s : State) :
    s.KeepsRing (s.retireByRelease n l term tag) := by
  have started (rs : List Release) : s.KeepsRing (((s.setReleases rs).startReleasing n l term).defer .retire) :=
    ((leave (t := (s.setReleases rs).changeStatus n l (.releasing term)) (State.changeStatus_lease n l _ s)).trans
      (pollSettle _)).andSame
  unfold State.retireByRelease
  split
  · exact cond same (started _)
  · exact cond same (started _)

theorem retireGracefulRequest (tag : Byte) (args : List Byte) (s : State) :
    s.KeepsRing (retireGracefulRequest tag args s) := by
  unfold Machine.retireGracefulRequest
  split
  · split
    · exact same
    · split
      · exact same
      · split
        · exact same
        · exact retireByRelease _ _ _ tag s
        · exact retireByRelease _ _ _ tag s
        · exact same
  · exact same

/-! ### The fault drop, RESET_TRUNK and the strobe -/

theorem dropLease (s : State) (n : Slot) : s.KeepsRing (s.dropLease n) := by
  unfold State.dropLease
  split
  · exact refl s
  · split
    · exact loseLease n _ _ s
    · exact loseLease n _ _ s
    · exact abandonOffer n _ s
    · exact refl s

theorem settleReleases (full withData : Bool) (r : Result) (es : List Release) (s : State) :
    s.KeepsRing (s.settleReleases full withData r es) := by
  induction es generalizing s with
  | nil => exact refl s
  | cons e rest ih =>
    unfold State.settleReleases
    split
    · exact ((endReleasing _ full s).andSame).trans (ih _)
    all_goals exact ih s

theorem takeFaultDrop (s : State) : s.KeepsRing s.takeFaultDrop := by
  have dropped := foldl dropLease allSlots s
  unfold State.takeFaultDrop
  dsimp only
  generalize allSlots.foldl State.dropLease s = t at dropped ⊢
  have emptied := dropped.andSame (u := State.setReleases [] { t with enrol := { t.enrol with offers := [] } })
  exact (emptied.trans (settleReleases _ _ _ _ _)).andRaise.trans (pollSettle _)

theorem dropEvent (s : State) : s.KeepsRing s.dropEvent := cond (afterSame (takeFaultDrop _)) (refl s)

theorem cancelRelays (es : List Relay) (s : State) : s.KeepsRing (s.cancelRelays es) := by
  induction es generalizing s with
  | nil => exact refl s
  | cons e rest ih => exact afterSame (ih _)

theorem settlePolling (s : State) : s.KeepsRing s.settlePolling :=
  have cleared : s.KeepsRing s.clearMarks := ofWalk (.clearMarks s)
  cond (cleared.trans (afterSame (ofWalk (.beginRound _)))) cleared.andSame

theorem answerDisable (s : State) : s.KeepsRing s.answerDisable := by
  unfold State.answerDisable
  split <;> exact same

theorem enterOff (s : State) : s.KeepsRing s.enterOff := afterSame (answerDisable _)

theorem resetTrunk (s : State) : s.KeepsRing s.resetTrunk := by
  have cancelled : s.KeepsRing (State.cancelRelays s.relays (s.setRelays [])) := afterSame (cancelRelays s.relays _)
  unfold State.resetTrunk
  dsimp only
  generalize State.cancelRelays s.relays (s.setRelays []) = t at cancelled ⊢
  have settled := (cancelled.andSame (u := t.setReleases [])).trans (settleReleases true false .cancelled s.releases _)
  generalize State.settleReleases true false .cancelled s.releases (t.setReleases []) = u at settled ⊢
  have abandoned := settled.trans (foldl (fun v (o : Offer) => abandonOffer o.slot v.offerQuarantine v) s.enrol.offers u)
  generalize s.enrol.offers.foldl (fun u o => u.abandonOffer o.slot u.offerQuarantine) u = v at abandoned ⊢
  have stopped := (abandoned.andSame
    (u := State.settleCensus { v with enrol := { v.enrol with offers := [], solicitDue := false } })).trans (settlePolling _)
  exact stopped.andSame.trans (enterOff _)

/-- A term that expires ends its lease; the others are counted down (R14, R15). -/
theorem strobeLease (s : State) (n : Slot) : s.KeepsRing (s.strobeLease n) := by
  unfold State.strobeLease
  split
  · exact refl s
  · next l hl =>
    split
    · next hst => exact cond (loseLease n l _ s) (write (State.putLease_lease n _ s) (lease_isBound hl hst))
    · next hst => exact cond (loseLease n l _ s) (write (State.putLease_lease n _ s) (lease_isBound hl hst))
    · next hst =>
      exact cond (write (State.vacate_lease n l _ s) (lease_isBound hl hst))
        (write (State.putLease_lease n _ s) (lease_isBound hl hst))
    · exact refl s

theorem takeStrobe (s : State) : s.KeepsRing s.takeStrobe :=
  ((foldl (fun _ _ => same) allAddresses s).trans (foldl strobeLease allSlots _)).trans (pollSettle _)

end State.KeepsRing
end Sys2Proof.Machine

/-! ## Requests, events and grants against the Poll Ring -/
namespace Sys2Proof.Machine
set_option Elab.async false

namespace State.KeepsRing

/-! ### Requests that write a lease or a block beside the ring -/

/-- A change of every lease that leaves it bound or unbound. -/
theorem mapLeases {f : Lease → Lease} (hf : ∀ l, isBound (some (f l)) = isBound (some l)) (s : State) :
    s.KeepsRing (s.mapLeases f) := by
  refine foldl (fun t n => ?_) allSlots s
  split
  · next l hl => exact write (State.putLease_lease n _ t) (by rw [hl, hf])
  · exact refl t

theorem isBound_clearMiss (l : Lease) : isBound (some l.clearMiss) = isBound (some l) := by
  unfold Lease.clearMiss
  split
  · next h => simp [isBound, h]
  · next h => simp [isBound, h]
  · rfl

theorem writeEffect (q : Param) (before after : Nat) (s : State) : s.KeepsRing (s.writeEffect q before after) := by
  unfold State.writeEffect
  split
  · exact same
  · exact mapLeases isBound_clearMiss s
  · exact mapLeases isBound_clearMiss s
  · exact cond (refl s) (mapLeases (f := Lease.restartWindow) (fun _ => isBound_congr rfl) s)
  · exact refl s

theorem configureRequest (tag : Byte) (args : List Byte) (s : State) : s.KeepsRing (configureRequest tag args s) := by
  unfold Machine.configureRequest
  split
  · next number lo hi =>
    split
    · exact same
    · next q _ =>
      have written : s.KeepsRing ((s.setParams (s.params.put (halfOf lo hi).toNat q)).writeEffect q (s.params.get q)
          (halfOf lo hi).toNat) := afterSame (writeEffect _ _ _ _)
      exact cond same (cond same written.andSame)
  · exact same

/-- SET_FIELDS leaves a lease its status (R29). -/
theorem setFieldsRequest (tag : Byte) (args : List Byte) (s : State) : s.KeepsRing (setFieldsRequest tag args s) := by
  have kept (l : Lease) (c : Nat) (label : Option Half) : (l.withFields c label).status = l.status := by
    unfold Lease.withFields
    split <;> rfl
  unfold Machine.setFieldsRequest
  split
  · split
    · exact same
    · refine cond same ?_
      split
      · exact same
      · next n _ _ l hl =>
        split
        · exact same
        · exact (write (State.putLease_lease n _ s) 
            ((congrArg isBound hl).trans (isBound_congr (kept l _ _)).symm)).andSame
  · exact same

/-- A pinned lease is RESERVED (R19). -/
theorem pinRequest (tag : Byte) (args : List Byte) (s : State) : s.KeepsRing (pinRequest tag args s) := by
  unfold Machine.pinRequest
  split
  · dsimp only
    split
    · exact same
    · split
      · exact same
      · refine cond same ?_
        split
        · exact same
        · next n hn => exact write (State.createLease_lease n _ s) (lease_unbound (freeSlot_eq_some hn))
  · exact same

theorem readChangesRequest (tag : Byte) (args : List Byte) (s : State) :
    s.KeepsRing (readChangesRequest tag args s) := by
  unfold Machine.readChangesRequest
  split
  · have removed (ns : List Slot) : s.KeepsRing (s.removeChanges ns) := foldl (fun _ _ => same) ns s
    have cleared (t : State) : t.KeepsRing t.clearChanges := cond same (refl t)
    exact cond ((removed (s.changeSet.take _)).trans (cleared _)).andSame same
  · exact same

theorem enableRequest (tag : Byte) (args : List Byte) (s : State) : s.KeepsRing (enableRequest tag args s) := by
  have enabled : s.KeepsRing s.enableTrunk := cond same (refl s)
  unfold Machine.enableRequest
  split
  · exact cond same (cond same enabled.andSame)
  · exact same

theorem disableRequest (tag : Byte) (args : List Byte) (s : State) : s.KeepsRing (disableRequest tag args s) := by
  refine cond same ?_
  split
  · exact same
  · exact (enterOff s).andSame
  · exact (enterOff s).andSame
  · exact same

/-! ### Requests that leave the leases and the ring as they are -/

theorem causeControlRequest (tag : Byte) (args : List Byte) (s : State) :
    s.KeepsRing (causeControlRequest tag args s) := by
  unfold Machine.causeControlRequest
  split
  · split
    · exact same
    · exact cond same same
  · exact same

theorem readConfigRequest (tag : Byte) (args : List Byte) (s : State) : s.KeepsRing (readConfigRequest tag args s) := by
  unfold Machine.readConfigRequest
  split
  · exact cond same same
  · exact same

theorem admitAddRequest (tag : Byte) (args : List Byte) (s : State) : s.KeepsRing (admitAddRequest tag args s) := by
  unfold Machine.admitAddRequest
  split
  · exact cond same (cond same same)
  · exact same

theorem admitRemoveRequest (tag : Byte) (args : List Byte) (s : State) : s.KeepsRing (admitRemoveRequest tag args s) := by
  unfold Machine.admitRemoveRequest
  split
  · exact cond same same
  · exact same

theorem admitReadRequest (tag : Byte) (args : List Byte) (s : State) : s.KeepsRing (admitReadRequest tag args s) := by
  unfold Machine.admitReadRequest
  split
  · refine cond same ?_
    split <;> exact same
  · exact same

theorem relayRequest (tag : Byte) (args : List Byte) (s : State) : s.KeepsRing (relayRequest tag args s) := by
  unfold Machine.relayRequest
  split
  · refine cond same ?_
    split
    · dsimp only
      split
      · exact cond same same
      · exact cond (cond same same) same
    · exact same
  · exact same

/-! ### The host port and the resets -/

theorem assemble (b : Byte) (a : Assembly) (s : State) : s.KeepsRing (s.assemble b a) := by
  cases a with
  | expectLength => exact cond (cond same same) (cond same same)
  | inFrame n got => exact cond same same
  | skip m => exact same
  | discard => exact refl s

/-- A reset leaves every slot FREE and the Poll Ring empty (R30, R124). -/
theorem held (pins : Pins) (pending : List Instr) (s : State) : s.KeepsRing (State.held pins pending) :=
  fun _ => ⟨List.nodup_nil, fun n => by
    simp [State.lease, State.held, LeaseTable.reset, isBound, Scheduler.slots, Scheduler.reset]⟩

theorem restart (s : State) : s.KeepsRing s.restart := cond same same

theorem resetRequest (tag : Byte) (args : List Byte) (s : State) : s.KeepsRing (resetRequest tag args s) := by
  unfold Machine.resetRequest
  split
  · have blocks : s.KeepsRing s.resetBlocks :=
      ((held s.pins s.pending s).andSame (u := State.setAccess s.host.access.afterReset _)).trans (restart _)
    exact blocks.andSame
  · exact same

/-! ### The Timing Unit -/

theorem secondsEvent (s : State) : s.KeepsRing s.secondsEvent := cond (afterSame (takeStrobe _)) (refl s)

theorem paceEvent (s : State) : s.KeepsRing s.paceEvent := by
  refine cond (cond ?_ same) (refl s)
  split
  · exact afterSame (ofWalk (.beginRound _))
  · exact same
  · exact same

theorem solicitEvent (s : State) : s.KeepsRing s.solicitEvent := cond (cond same same) (refl s)

theorem censusStepEvent (s : State) : s.KeepsRing s.censusStepEvent := cond (afterSame (timerStep _)) (refl s)

theorem tickEvent (s : State) : s.KeepsRing s.tickEvent :=
  ((((secondsEvent s).trans (paceEvent _)).trans (solicitEvent _)).trans
    ((censusStepEvent _).trans (dropEvent _))).andSame

theorem refclkPeriod (s : State) : s.KeepsRing s.refclkPeriod := by
  have clock : s.KeepsRing (if s.engine.state.timed then
      { s with engine := { s.engine with clock := s.engine.clock + 1 } } else s) := cond same (refl s)
  exact clock.trans (cond (tickEvent _) same)

/-! ### Ends of attempts and faults (3.2, 3.5) -/

/-- The outcome of a transaction at its owner (Table 3-5). -/
theorem txnDone (t : Txn) (o : AttemptOutcome) (s : State) : s.KeepsRing (s.txnDone t o) := by
  unfold State.txnDone
  split
  · exact pollDone t o s
  · exact refl s
  · exact offerDone t o s
  · exact releaseDone t o s
  · exact probeDone t o s
  · exact relayDone t o s

theorem countTxnAttempt (t : Txn) (o : AttemptOutcome) (s : State) : s.KeepsRing (s.countTxnAttempt t o) := by
  unfold State.countTxnAttempt
  split
  · exact countAttempt _ _ _ _ s
  · exact countAttempt _ _ _ _ s
  · exact refl s

theorem countFailedOffer (t : Txn) (s : State) : s.KeepsRing (s.countFailedOffer t) := by
  unfold State.countFailedOffer
  split
  · exact same
  · exact refl s

theorem endAttempt (ended : Nat) (o : AttemptOutcome) (payload : Option (List Byte)) (s : State) :
    s.KeepsRing (s.endAttempt ended o payload) := by
  unfold State.endAttempt
  split
  · exact refl s
  · next t _ =>
    have counted := (countTxnAttempt (t.ended o payload) o s).andSame (u := State.enterGuard ended _)
    exact cond (counted.andSame.trans (txnDone _ _ _)) (counted.andSame.trans (countFailedOffer _ _))

theorem leaveTrunk (s : State) : s.KeepsRing s.leaveTrunk := by
  unfold State.leaveTrunk
  split
  · exact enterOff s
  · exact same

theorem abortForFault (s : State) : s.KeepsRing s.abortForFault := by
  unfold State.abortForFault
  split
  · exact refl s
  · split
    · exact leaveTrunk s
    · exact (afterSame (t := s.setTxn none) (txnDone _ _ _)).trans (leaveTrunk _)

/-! ### Reception (2.1 to 2.4) -/

theorem endReply (short : Bool) (ended : Nat) (s : State) : s.KeepsRing (s.endReply short ended) := by
  unfold State.endReply
  split
  · exact refl s
  · split
    · exact refl s
    · split <;> exact endAttempt _ _ _ s

theorem endListen (ended : Nat) (s : State) : s.KeepsRing (s.endListen ended) := afterSame (evaluateSolicit _ _)

theorem endListenFrame (short : Bool) (now : Nat) (s : State) : s.KeepsRing (s.endListenFrame short now) :=
  cond (afterSame (t := s.keepFrame short) (endListen now _)) same

theorem idleTimeout (s : State) : s.KeepsRing s.idleTimeout :=
  cond (cond (afterSame (t := s.passTo _) (endListenFrame _ _ _)) (afterSame (t := s.passTo _) (endReply _ _ _))) (refl s)

theorem windowTimeout (s : State) : s.KeepsRing s.windowTimeout :=
  cond (afterSame (t := s.passTo _) (endAttempt _ _ _ _)) (refl s)

theorem listenTimeout (s : State) : s.KeepsRing s.listenTimeout :=
  cond (afterSame (t := s.passTo _) (endListen _ _)) (refl s)

theorem catchUp (t : Nat) (s : State) : s.KeepsRing (s.catchUp t) := by
  have idle : s.KeepsRing (if s.engine.reception.idleFrom + s.params.charTime < t then s.idleTimeout else s) :=
    cond (idleTimeout s) (refl s)
  exact idle.trans (cond (cond (listenTimeout _) (refl _)) (cond (windowTimeout _) (refl _)))

theorem beginCharacter (t : Nat) (s : State) : s.KeepsRing (s.beginCharacter t) := by
  unfold State.beginCharacter
  split
  · exact same
  · exact same
  · exact refl s

theorem startCharacter (t : Nat) (s : State) : s.KeepsRing (s.startCharacter t) :=
  cond ((catchUp _ s).trans (beginCharacter _ _)) (refl s)

theorem gatherReply (c : RxChar) (t : Nat) (s : State) : s.KeepsRing (s.gatherReply c t) := by
  have marked (r : Reception) (k : Nat) : s.KeepsRing (match (s.setReception r).engine.txn with
      | some x => (s.setReception r).setTxn (some { x with errorMap := markError x.errorMap k c })
      | none => s.setReception r) := by
    split <;> exact same
  exact cond (endReply true t s) (cond ((marked _ _).trans (endReply _ _ _)) (marked _ _))

theorem gatherListen (c : RxChar) (t : Nat) (s : State) : s.KeepsRing (s.gatherListen c t) :=
  cond (cond (afterSame (t := s.keepFrame true) (endListen t _)) same)
    (cond (afterSame (t := s.setReception _) (endListenFrame false _ _)) same)

theorem receiveCharacter (c : RxChar) (s : State) : s.KeepsRing (s.receiveCharacter c) := by
  have begun : s.KeepsRing (if s.engine.reception.charBegan = none then s.startCharacter s.presumedBegin else s) :=
    cond (startCharacter _ s) (refl s)
  unfold State.receiveCharacter
  dsimp only
  generalize (if s.engine.reception.charBegan = none then s.startCharacter s.presumedBegin else s) = u at begun ⊢
  split
  · next t _ _ =>
    exact begun.trans (cond (afterSame (t := u.endCharacter t) (gatherListen c t _))
      (afterSame (t := u.endCharacter t) (gatherReply c t _)))
  · exact begun

/-! ### Grants (3.3) -/

theorem grantOffer (o : Offer) (s : State) : s.KeepsRing (s.grantOffer o) := by
  unfold State.grantOffer
  split
  · exact refl s
  · exact same

theorem grantPoll (n : Slot) (s : State) : s.KeepsRing (s.grantPoll n) := by
  unfold State.grantPoll
  split
  · exact refl s
  · exact same

theorem grantLow (s : State) : s.KeepsRing s.grantLow := by
  unfold State.grantLow
  split
  · exact same
  · split
    · exact grantPoll _ s
    · exact cond same (refl s)

theorem arbitrateRelays (queue : List Relay) (s : State) : s.KeepsRing (s.arbitrateRelays queue) := by
  induction queue generalizing s with
  | nil =>
    unfold State.arbitrateRelays
    split
    · exact grantPoll _ s
    · exact grantLow s
  | cons e rest ih =>
    have refused (n : Slot) : s.KeepsRing ((s.refuseRelay e rest n).arbitrateRelays rest) := afterSame (ih _)
    unfold State.arbitrateRelays
    split
    · exact grantPoll _ s
    · split
      · exact same
      · split
        · exact cond same (refused _)
        · exact refused _

theorem arbitrate (s : State) : s.KeepsRing s.arbitrate := by
  unfold State.arbitrate
  split
  · exact grantOffer _ s
  · exact same
  · exact arbitrateRelays _ s

/-! ### Commands -/

variable {s t : State}

/-- An event of a part that is out of reset. -/
theorem ofRunning {f : State → State} (hf : s.KeepsRing (f s)) (h : whenRunning f s = .next t) : s.KeepsRing t := by
  rcases whenRunning_cases h with ⟨-, rfl⟩ | ⟨-, rfl⟩
  · exact refl t
  · exact hf

/-- An event after a change of a pin's level. -/
theorem ofPin {u : State} {f : State → State} (hf : u.KeepsRing (f u)) (h : whenRunning f u = .next t)
    (hu : u.table.slots = s.table.slots ∧ u.poll.slots = s.poll.slots := by exact ⟨rfl, rfl⟩) : s.KeepsRing t :=
  (same hu).trans (ofRunning hf h)

/-- The take of an entry of the Request FIFO. -/
theorem ofHead {row : Instr} {handle : ReqEntry → State → State} (hf : ∀ e (u : State), u.KeepsRing (handle e u))
    (h : takeHead row handle s = .next t) : s.KeepsRing t := by
  rcases takeHead_cases h with rfl | ⟨e, rest, -, -, -, -, rfl⟩
  · exact refl t
  · exact afterSame (hf e (s.popped rest))

/-- The take of a request. -/
theorem ofRequest {row : Instr} {handle : Byte → List Byte → State → State}
    (hf : ∀ tag args (u : State), u.KeepsRing (handle tag args u)) (h : takeRequest row handle s = .next t) :
    s.KeepsRing t := by
  refine ofHead (fun e u => ?_) h
  cases e with
  | frame bytes => exact hf _ _ u
  | marker b => exact refl u

theorem execRstAssert (h : execRstAssert s = .next t) : s.KeepsRing t := by
  unfold Machine.execRstAssert at h
  split at h <;> cases h
  · exact refl s
  · exact held _ _ s

theorem execRstRise (h : execRstRise s = .next t) : s.KeepsRing t := by
  unfold Machine.execRstRise at h
  split at h <;> cases h
  · exact ((held { s.pins with rstLow := false } s.pending s).andSame (u := State.setAccess _ _)).trans (restart _)
  · exact refl s

theorem execCsFall (h : execCsFall s = .next t) : s.KeepsRing t := by
  unfold Machine.execCsFall at h
  split at h
  · cases h
    exact refl s
  · exact ofPin (cond same same) h

theorem execCsRise (h : execCsRise s = .next t) : s.KeepsRing t := by
  unfold Machine.execCsRise at h
  split at h
  · refine ofPin ?_ h
    split <;> exact same
  · cases h
    exact refl s

theorem execTrunkFaultRising (h : execTrunkFaultRising s = .next t) : s.KeepsRing t := by
  unfold Machine.execTrunkFaultRising at h
  split at h
  · cases h
    exact refl s
  · refine ofPin (u := { s with pins := { s.pins with fault := true } }) ?_ h
    exact afterSame (t := State.beginFault _) (abortForFault _)

theorem execTrunkFaultFalling (h : execTrunkFaultFalling s = .next t) : s.KeepsRing t := by
  unfold Machine.execTrunkFaultFalling at h
  split at h
  · split at h
    · cases h
      exact same
    · obtain rfl := Host.Outcome.next.inj h
      exact (dropEvent s).trans (cond same same)
  · cases h
    exact refl s

theorem execFrameSent (h : execFrameSent s = .next t) : s.KeepsRing t := by
  refine ofRunning (cond ?_ (refl s)) h
  split
  · exact refl s
  · exact cond same (afterSame (t := s.passTo _) (endAttempt _ _ _ _))

theorem execGuardEnd (h : execGuardEnd s = .next t) : s.KeepsRing t := by
  refine ofRunning (cond ?_ (refl s)) h
  split
  · exact same
  · split
    · exact enterOff s
    · exact same

theorem execRequestByte {b : Byte} (h : execRequestByte b s = .next t) : s.KeepsRing t := by
  refine ofRunning ?_ h
  split
  · exact assemble b _ s
  · exact refl s

theorem execResponseByteBegin (h : execResponseByteBegin s = .next t) : s.KeepsRing t := by
  refine ofRunning ?_ h
  split
  · exact same
  · exact refl s

theorem execResponseByteRead (h : execResponseByteRead s = .next t) : s.KeepsRing t := by
  have sent (out : ResponseByte) : s.KeepsRing (s.sendByte out) := by
    cases out <;> exact same
  refine ofRunning ?_ h
  split
  · exact (sent _).andSame
  · exact same
  · exact refl s

/-- Every command keeps the Poll Ring in agreement with the leases. -/
theorem exec {c : Instr} (h : exec c s = .next t) : s.KeepsRing t := by
  cases c with
  | rstAssert => exact execRstAssert h
  | rstRise => exact execRstRise h
  | csFall => exact execCsFall h
  | accessByte b => exact ofRunning (cond same (refl s)) h
  | requestByte b => exact execRequestByte h
  | csRise => exact execCsRise h
  | responseByteRead => exact execResponseByteRead h
  | badFrame => exact ofHead (fun e _ => by cases e <;> exact same) h
  | unknownRequest => exact ofHead (fun e _ => by cases e <;> exact same) h
  | echo => exact ofRequest (handle := echoRequest) (fun _ _ _ => cond same same) h
  | readEngine => exact ofRequest (fun _ _ _ => by unfold readEngineRequest; split <;> exact same) h
  | configure => exact ofRequest configureRequest h
  | readConfig => exact ofRequest readConfigRequest h
  | enable => exact ofRequest enableRequest h
  | disable => exact ofRequest disableRequest h
  | resetTrunk => exact ofRequest (fun _ _ u => (resetTrunk u).andSame) h
  | reset => exact ofRequest resetRequest h
  | causeControl => exact ofRequest causeControlRequest h
  | readCauses => exact ofRequest (fun _ _ _ => by unfold readCausesRequest; split <;> exact same) h
  | readChanges => exact ofRequest readChangesRequest h
  | readSlot => exact ofRequest (fun _ _ _ => by unfold readSlotRequest; (repeat' split) <;> exact same) h
  | lookupIdentity => exact ofRequest (fun _ _ _ => by unfold lookupIdentityRequest; (repeat' split) <;> exact same) h
  | lookupAddress => exact ofRequest (fun _ _ _ => by unfold lookupAddressRequest; (repeat' split) <;> exact same) h
  | setFields => exact ofRequest setFieldsRequest h
  | pin => exact ofRequest pinRequest h
  | retireForced => exact ofRequest retireForcedRequest h
  | retireGraceful => exact ofRequest retireGracefulRequest h
  | ringMove => exact ofRequest ringMoveRequest h
  | setEnrolMode => exact ofRequest (fun _ _ _ => by unfold setEnrolModeRequest; (repeat' split) <;> exact same) h
  | admitAdd => exact ofRequest admitAddRequest h
  | admitRemove => exact ofRequest admitRemoveRequest h
  | admitClear => exact ofRequest (fun _ _ _ => by unfold admitClearRequest; split <;> exact same) h
  | admitRead => exact ofRequest admitReadRequest h
  | pollControl => exact ofRequest pollControlRequest h
  | pollRound => exact ofRequest pollRoundRequest h
  | censusStart => exact ofRequest censusStartRequest h
  | censusStop => exact ofRequest censusStopRequest h
  | censusStep => exact ofRequest censusStepRequest h
  | censusStatus => exact ofRequest (fun _ _ _ => by unfold censusStatusRequest; split <;> exact same) h
  | relay => exact ofRequest relayRequest h
  | relayCancel => exact ofRequest (fun _ _ _ => by unfold relayCancelRequest; (repeat' split) <;> exact same) h
  | tick => exact ofRunning (tickEvent s) h
  | secondsStrobe => exact ofRunning (secondsEvent s) h
  | paceExpiry => exact ofRunning (paceEvent s) h
  | solicitExpiry => exact ofRunning (solicitEvent s) h
  | censusStepExpiry => exact ofRunning (censusStepEvent s) h
  | trunkFaultRising => exact execTrunkFaultRising h
  | trunkFaultFalling => exact execTrunkFaultFalling h
  | faultDrop => exact ofRunning (dropEvent s) h
  | grant => exact ofRunning (cond (arbitrate s) (refl s)) h
  | frameSent => exact execFrameSent h
  | characterReceived data flag parity stop => exact ofRunning (receiveCharacter _ s) h
  | replyIdleTimeout => exact ofRunning (idleTimeout s) h
  | replyWindowTimeout => exact ofRunning (windowTimeout s) h
  | solicitListenEnd => exact ofRunning (listenTimeout s) h
  | guardEnd => exact execGuardEnd h
  | startBit began middle =>
    exact ofRunning (f := fun u => if middle then u else u.startCharacter began) (cond (refl s) (startCharacter began s)) h
  | responseByteBegin => exact execResponseByteBegin h

/-- Every step keeps the Poll Ring in agreement with the leases. -/
theorem step (h : step s = .next t) : s.KeepsRing t := by
  unfold Machine.step at h
  split at h
  · next c rest _ => exact afterSame (t := { s with pending := rest }) (exec h)
  · unfold idleStep at h
    split at h
    · cases h
      exact refl s
    · split at h
      · exact exec h
      · cases h
        exact refclkPeriod s

end State.KeepsRing

/-- Settles O55: each operation takes the lease and its slot's place in the ring in one change, and a step is made of them. -/
theorem everyStepKeepsThePollRing : Obligations.EveryStepKeepsThePollRing := fun _ _ hs h => State.KeepsRing.step h hs

end Sys2Proof.Machine

/-! ## The requests of the Poll Scheduler (5.1, 5.2) -/
namespace Sys2Proof.Machine
set_option Elab.async false

/-! ### RING_MOVE (R101) -/

section Ring
variable {ring before after : List RingMember} {m anchor : RingMember}

/-- A member is found by its slot. -/
theorem find_slot (hnodup : (ring.map (fun r => r.slot)).Nodup) (hm : m ∈ ring) :
    ring.find? (fun r => r.slot == m.slot) = some m := by
  induction ring with
  | nil => cases hm
  | cons k ks ih =>
    obtain ⟨hout, hrest⟩ := List.nodup_cons.mp hnodup
    rcases List.mem_cons.mp hm with rfl | hm
    · exact List.find?_cons_of_pos (beq_self_eq_true _)
    · have hne : k.slot ≠ m.slot := fun e => hout (List.mem_map.mpr ⟨m, hm, e.symm⟩)
      rw [List.find?_cons_of_neg (by simpa using hne)]
      exact ih hrest hm

/-- The position of a member is the number of those before it. -/
theorem findIdx_slot (h : ∀ r ∈ before, r.slot ≠ m.slot) :
    (before ++ m :: after).findIdx (fun r => r.slot == m.slot) = before.length := by
  induction before with
  | nil => simp [List.findIdx_cons]
  | cons k ks ih =>
    have hk : (k.slot == m.slot) = false := by simpa using h k List.mem_cons_self
    rw [List.cons_append, List.findIdx_cons, hk, ih fun r hr => h r (List.mem_cons_of_mem k hr)]
    rfl

/-- Without an anchor the member goes to the tail. -/
theorem insertBefore_tail : insertBefore m none ring = ring ++ [m] := by
  cases ring <;> rfl

/-- With an anchor it goes immediately before it. -/
theorem insertBefore_anchor (h : ∀ r ∈ before, r.slot ≠ anchor.slot) :
    insertBefore m (some anchor.slot) (before ++ anchor :: after) = before ++ m :: anchor :: after := by
  induction before with
  | nil => exact if_pos rfl
  | cons k ks ih =>
    have hk : k.slot ≠ anchor.slot := h k List.mem_cons_self
    rw [List.cons_append, insertBefore, if_neg hk, ih fun r hr => h r (List.mem_cons_of_mem k hr), List.cons_append]

/-- A move takes the member out and places it among the others. -/
theorem moveMember_eq (hnodup : (ring.map (fun r => r.slot)).Nodup) (hm : m ∈ ring) (anchor : Option Slot) :
    moveMember m.slot anchor ring = insertBefore m anchor (ring.filter (fun r => r.slot ≠ m.slot)) := by
  rw [moveMember, find_slot hnodup hm]

end Ring

/-- FFh is the tail. -/
theorem anchorOf_tail : anchorOf 0xFF = some none := rfl

/-- A byte of 0..63 names that slot as the anchor. -/
theorem anchorOf_slot {c : Byte} {a : Slot} (h : c.toNat = a.val) : anchorOf c = some (some a) := by
  have ha : a.val < 64 := a.isLt
  have hc : c ≠ 0xFF := by
    rintro rfl
    simp at h
    omega
  rw [anchorOf, if_neg hc, slotOf_eq_some.mpr h]
  rfl

/-- Any other byte names no anchor. -/
theorem anchorOf_none {c : Byte} (h : 64 ≤ c.toNat) (hc : c ≠ 0xFF) : anchorOf c = none := by
  rw [anchorOf, if_neg hc, slotOf_eq_none.mpr h]
  rfl

section Move
variable {s : State} {tag b c : Byte} {n : Slot} {anchor : Option Slot}

/-- A byte that names no slot and no anchor, or a member before itself, is refused. -/
theorem ringMoveRequest_refused (h : slotOf b = none ∨ anchorOf c = none ∨ anchorOf c = some (slotOf b)) :
    ringMoveRequest tag [b, c] s = s.answer .ringMove tag .badArg [] := by
  unfold ringMoveRequest
  dsimp only
  split
  · next n anchor hb hc =>
    rw [hb, hc] at h
    exact if_pos (by simpa using h)
  · rfl

/-- A member and an anchor that are named are sought in the ring. -/
theorem ringMoveRequest_named (hb : slotOf b = some n) (hc : anchorOf c = some anchor) (hne : anchor ≠ some n) :
    ringMoveRequest tag [b, c] s =
      if n ∉ s.poll.slots ∨ ∃ a ∈ anchor, a ∉ s.poll.slots then s.answer .ringMove tag .notFound []
      else State.answer .ringMove tag .ok
        [byteOf ((moveMember n anchor s.poll.ring).findIdx (fun m => m.slot == n)),
          byteOf (moveMember n anchor s.poll.ring).length]
        { s with poll := { s.poll with ring := moveMember n anchor s.poll.ring } } := by
  simp only [ringMoveRequest, hb, hc, if_neg hne, State.inRing_eq, decide_eq_false_iff_not]
  by_cases hn : n ∈ s.poll.slots
  · cases anchor with
    | none => simp [hn]
    | some a => simp [hn]
  · simp [hn]

/-- A member that is taken before some members and after others stands there, with the ring as long as it was. -/
theorem ringMoveRequest_moved {m : RingMember} {before after : List RingMember} (hnodup : s.poll.slots.Nodup)
    (hm : m ∈ s.poll.ring) (hb : slotOf b = some m.slot) (hc : anchorOf c = some anchor) (hne : anchor ≠ some m.slot)
    (hin : ∀ a ∈ anchor, a ∈ s.poll.slots) (hbefore : ∀ r ∈ before, r.slot ≠ m.slot)
    (hring : insertBefore m anchor (s.poll.ring.filter (fun r => r.slot ≠ m.slot)) = before ++ m :: after) :
    ringMoveRequest tag [b, c] s =
      ({ s with poll := { s.poll with ring := before ++ m :: after } } : State).replied
        [6, 0x16, tag, 0x00, byteOf before.length, byteOf s.poll.ring.length] := by
  have hslot : m.slot ∈ s.poll.slots := List.mem_map_of_mem hm
  have hmove : moveMember m.slot anchor s.poll.ring = before ++ m :: after := (moveMember_eq hnodup hm anchor).trans hring
  have hlength : (before ++ m :: after).length = s.poll.ring.length := by
    have h := (moveMember_perm hnodup m.slot anchor).length_eq
    rwa [hmove, Scheduler.slots, List.length_map, List.length_map] at h
  rw [ringMoveRequest_named hb hc hne, if_neg (by simpa [hslot] using hin), hmove, hlength, findIdx_slot hbefore]
  rfl

end Move

/-- Settles O28: the bytes, then the ring, are checked; the member is taken out and put in its place among the others. -/
theorem ringMovePlacesTheMember : Obligations.RingMovePlacesTheMember := by
  intro s k tag b c rest h moved
  refine ⟨fun hbad => ?_, fun n hb => ⟨fun hn hc => ?_, fun hn a hc hne ha => ?_, fun hnodup m hm hslot => ?_⟩⟩
  · rw [exec_ringMove h, ringMoveRequest_refused]
    · rfl
    · rcases hbad with hb | ⟨hc, hff⟩ | rfl
      · exact .inl (slotOf_eq_none.mpr hb)
      · exact .inr (.inl (anchorOf_none hc hff))
      · cases hs : slotOf b with
        | none => exact .inl rfl
        | some n => exact .inr (.inr (anchorOf_slot (slotOf_eq_some.mp hs)))
  · have hb' := slotOf_eq_some.mpr hb
    obtain ⟨anchor, hanchor, hother⟩ : ∃ anchor, anchorOf c = some anchor ∧ anchor ≠ some n := by
      rcases hc with rfl | ⟨hc, hbc⟩
      · exact ⟨none, anchorOf_tail, nofun⟩
      · refine ⟨some ⟨c.toNat, hc⟩, anchorOf_slot rfl, fun e => hbc (BitVec.eq_of_toNat_eq ?_)⟩
        rw [hb, ← Option.some.inj e]
    rw [exec_ringMove h, ringMoveRequest_named hb' hanchor hother, if_pos (.inl hn)]
    rfl
  · rw [exec_ringMove h, ringMoveRequest_named (slotOf_eq_some.mpr hb) (anchorOf_slot hc) (by simpa using hne),
      if_pos (.inr ⟨a, rfl, ha⟩)]
    rfl
  · subst hslot
    intro others
    have hothers : ∀ r ∈ others, r ∈ s.poll.ring ∧ r.slot ≠ m.slot := fun r hr => by simpa [others] using hr
    have hb' := slotOf_eq_some.mpr hb
    refine ⟨?_, fun before anchor after hsplit hc => ?_⟩
    · rintro rfl
      rw [exec_ringMove h, ringMoveRequest_moved (s := s.popped rest) (after := []) hnodup hm hb' anchorOf_tail nofun nofun
        (fun r hr => (hothers r hr).2) insertBefore_tail]
      rfl
    · have hanchor : anchor ∈ others := hsplit ▸ List.mem_append_right before List.mem_cons_self
      obtain ⟨hin, hne⟩ := hothers anchor hanchor
      have hfirst : ∀ r ∈ before, r.slot ≠ anchor.slot := by
        have hn : (others.map (fun r => r.slot)).Nodup := hnodup.sublist (List.filter_sublist.map _)
        rw [hsplit, List.map_append, List.map_cons] at hn
        exact fun r hr e => (List.nodup_append.mp hn).2.2 _ (List.mem_map_of_mem hr) _ List.mem_cons_self e
      rw [exec_ringMove h, ringMoveRequest_moved (s := s.popped rest) (after := anchor :: after) hnodup hm hb'
        (anchorOf_slot hc) (by simpa using hne)
        (fun a ha => Option.mem_some_iff.mp ha ▸ List.mem_map_of_mem hin)
        (fun r hr => (hothers r (hsplit ▸ List.mem_append_left _ hr)).2)
        ((congrArg _ hsplit).trans (insertBefore_anchor hfirst))]
      rfl

/-! ### POLL_CONTROL and POLL_ROUND (R103, R110, R111) -/

/-- A byte above 3 names no poll mode (Table 9-7). -/
theorem PollMode.ofCode_none {m : Byte} (h : 3 < m.toNat) : PollMode.ofCode m = none := by
  have other (n : Nat) (hn : n ≤ 3) : m ≠ BitVec.ofNat 8 n := by
    rintro rfl
    rw [BitVec.toNat_ofNat] at h
    omega
  simp [PollMode.ofCode, other 0, other 1, other 2, other 3]

theorem PollMode.ofCode_code (mode : PollMode) : PollMode.ofCode mode.code = some mode := by
  cases mode <;> rfl

section Mode
variable {s : State} {mode : PollMode}

/-- OFF ends the round and detaches a poll in flight (R111). -/
theorem setPollMode_off (h : s.poll.mode ≠ .off) :
    s.setPollMode .off = { s with poll := { s.poll with
      mode := .off, state := .off, pending := none
      detached := match s.poll.pending with
        | some ⟨n, true⟩ => some n
        | _ => s.poll.detached } } := by
  rw [State.setPollMode, if_neg (Ne.symm h), if_pos rfl, State.stopPolling]
  rcases s.poll.pending with _ | ⟨n, _ | _⟩ <;> rfl

/-- Another mode takes the scheduler out of OFF, and in CONTINUOUS begins a round from WAIT over members (R103). -/
theorem setPollMode_on (hmode : mode ≠ .off) (h : mode ≠ s.poll.mode) :
    s.setPollMode mode =
      let state := if s.poll.state = .off then .wait else s.poll.state
      let entered : State := { s with poll := { s.poll with mode := mode, state := state } }
      if state = .wait ∧ mode = .continuous ∧ s.poll.ring ≠ [] then entered.beginRound else entered := by
  rw [State.setPollMode, if_neg h, if_neg hmode]
  rfl

/-- POLL_ROUND outside SINGLE. -/
theorem pollRoundRequest_elsewhere {tag : Byte} (h : s.poll.mode ≠ .single) :
    pollRoundRequest tag [] s = s.answer .pollRound tag .badState [] := if_pos h

/-- POLL_ROUND in SINGLE. -/
theorem pollRoundRequest_single {tag : Byte} (h : s.poll.mode = .single) :
    pollRoundRequest tag [] s =
      if s.poll.state = .round then s.answer .pollRound tag .busy []
      else s.beginRound.answer .pollRound tag .ok
        ([byteOf s.poll.ring.length, s.beginRound.poll.state.code] ++ halfBytes s.beginRound.poll.rounds) :=
  if_neg (not_not.mpr h)

end Mode

/-- Settles O29: the change of mode and the beginning of a round, each with its answer. -/
theorem pollRequestsSetTheModeAndBeginRounds : Obligations.PollRequestsSetTheModeAndBeginRounds := by
  refine ⟨rfl, rfl, fun s k tag m rest h => ⟨fun hm => ?_, ?_⟩, fun s k tag rest h =>
    ⟨fun hmode => ?_, fun hmode hstate => ?_, fun hmode hstate => ?_⟩⟩
  · rw [exec_pollControl h]
    simp only [pollControlRequest, PollMode.ofCode_none hm]
    rfl
  · rintro mode rfl done state entered
    have taken {t : State} (ht : (s.popped rest).setPollMode mode = t) : exec .pollControl s = .next (done t) := by
      rw [exec_pollControl h]
      simp only [pollControlRequest, PollMode.ofCode_code, ht]
      rfl
    refine ⟨fun hsame => taken (if_pos hsame), ?_, fun hoff hother hstay => ?_, ?_⟩
    · rintro rfl hon
      exact taken (setPollMode_off (s := s.popped rest) hon)
    · refine taken ((setPollMode_on (s := s.popped rest) hoff hother).trans (if_neg ?_))
      rintro ⟨hwait, hcont, hring⟩
      exact hstay ⟨hcont, hwait, hring⟩
    · rintro rfl hother hwait hring
      exact taken ((setPollMode_on (s := s.popped rest) (mode := .continuous) nofun hother).trans (if_pos ⟨hwait, rfl, hring⟩))
  · rw [exec_pollRound h, pollRoundRequest_elsewhere (s := s.popped rest) hmode]
    rfl
  · rw [exec_pollRound h, pollRoundRequest_single (s := s.popped rest) hmode]
    exact congrArg _ (if_pos hstate)
  · rw [exec_pollRound h, pollRoundRequest_single (s := s.popped rest) hmode]
    exact congrArg _ (if_neg (by rw [State.popped_poll, hstate]; nofun))

end Sys2Proof.Machine

/-! ## The walk over the Poll Ring (5.2)

A walk step passes members until one is due. What the members passed leave behind is said once, and then what a walk step is, as
it names a poll or ends its round. -/
namespace Sys2Proof.Machine
set_option Elab.async false

/-! ### The members passed -/

/-- Whether a slot stands among these members with its mark clear. -/
def unmarked (ms : List RingMember) (n : Slot) : Bool := ms.any (fun r => decide (r.slot = n) && !r.visited)

/-- A member with its mark set. -/
def RingMember.marked (r : RingMember) : RingMember := { r with visited := true }

/-- A member after these members have been passed. -/
def RingMember.after (ms : List RingMember) (r : RingMember) : RingMember := if unmarked ms r.slot then r.marked else r

/-- The lease of a slot after these members have been passed. -/
def Lease.lowered (ms : List RingMember) (n : Slot) (l : Lease) : Lease :=
  if unmarked ms n then { l with cadenceCount := l.cadenceCount - 1 } else l

/-- Whether a walk passes a member: its mark is set, or it is not due. -/
def State.passes (s : State) (r : RingMember) : Bool := r.visited || decide (2 ≤ s.countOf r.slot)

/-- From `s` to `t` these members have been passed. -/
def State.Passed (ms : List RingMember) (s t : State) : Prop :=
  ∃ slots : Vector (Option Lease) 64, (∀ n : Slot, slots[n] = (s.lease n).map (Lease.lowered ms n)) ∧
    t = { s with
      table := { s.table with slots := slots }
      poll := { s.poll with ring := s.poll.ring.map (RingMember.after ms) } }

/-- A member with its mark set is not one of the unmarked. -/
theorem unmarked_cons_visited {m : RingMember} (h : m.visited = true) (ms : List RingMember) :
    unmarked (m :: ms) = unmarked ms := by
  funext n
  simp [unmarked, h]

theorem unmarked_cons {m : RingMember} (h : m.visited = false) (ms : List RingMember) (n : Slot) :
    unmarked (m :: ms) n = (decide (m.slot = n) || unmarked ms n) := by
  simp [unmarked, h]

/-- A slot that is none of these members is not unmarked among them. -/
theorem unmarked_absent {ms : List RingMember} {n : Slot} (h : n ∉ ms.map (fun r => r.slot)) : unmarked ms n = false := by
  simp only [List.mem_map, not_exists, not_and] at h
  simpa [unmarked] using fun r hr e => absurd e (h r hr)

/-- A member of these whose mark is clear is unmarked among them. -/
theorem unmarked_member {ms : List RingMember} {r : RingMember} (hr : r ∈ ms) (hv : r.visited = false) :
    unmarked ms r.slot = true := List.any_eq_true.mpr ⟨r, hr, by simp [hv]⟩

theorem RingMember.marked_eq {r : RingMember} (h : r.visited = true) : r.marked = r := by
  cases r
  cases h
  rfl

/-- Each of the members passed has its mark set. -/
theorem RingMember.after_member {ms : List RingMember} {r : RingMember} (hr : r ∈ ms) : r.after ms = r.marked := by
  unfold RingMember.after
  split
  · rfl
  · next h =>
    cases hv : r.visited with
    | true => exact (marked_eq hv).symm
    | false => exact absurd (unmarked_member hr hv) h

/-- Every other member is as it was. -/
theorem RingMember.after_other {ms : List RingMember} {r : RingMember} (h : r.slot ∉ ms.map (fun r => r.slot)) :
    r.after ms = r := if_neg (by simp [unmarked_absent h])

theorem Lease.lowered_other {ms : List RingMember} {n : Slot} (h : n ∉ ms.map (fun r => r.slot)) (l : Lease) :
    l.lowered ms n = l := if_neg (by simp [unmarked_absent h])

namespace State.Passed

variable {s t u : State} {m : RingMember} {ms : List RingMember}

theorem nil (s : State) : s.Passed [] s := by
  refine ⟨s.table.slots, fun n => ?_, ?_⟩
  · show s.lease n = _
    cases s.lease n <;> rfl
  · rw [show RingMember.after [] = id from rfl, List.map_id]

/-- A member whose mark is set is passed without a change. -/
theorem consVisited (hv : m.visited = true) (h : s.Passed ms t) : s.Passed (m :: ms) t := by
  have hafter : RingMember.after (m :: ms) = RingMember.after ms := by
    funext r
    rw [RingMember.after, RingMember.after, unmarked_cons_visited hv]
  have hlowered : Lease.lowered (m :: ms) = Lease.lowered ms := by
    funext n l
    rw [Lease.lowered, Lease.lowered, unmarked_cons_visited hv]
  unfold State.Passed at h ⊢
  rwa [hafter, hlowered]

/-- A member that is not due is passed with its count lowered and its mark set. -/
theorem consLowered {l : Lease} (hv : m.visited = false) (hl : s.lease m.slot = some l)
    (hm : m.slot ∉ ms.map (fun r => r.slot))
    (h : ((s.setCadenceCount m.slot l (l.cadenceCount - 1)).markVisited m.slot).Passed ms t) : s.Passed (m :: ms) t := by
  obtain ⟨slots, hslots, rfl⟩ := h
  refine ⟨slots, fun n => ?_, ?_⟩
  · rw [hslots]
    show ((s.putLease m.slot _).lease n).map _ = _
    rw [State.putLease_lease]
    by_cases hn : n = m.slot
    · subst hn
      rw [if_pos rfl, hl, Option.map_some, Option.map_some, Lease.lowered_other hm, Lease.lowered, unmarked_cons hv]
      simp
    · rw [if_neg hn]
      refine congrArg (fun f => (s.lease n).map f) (funext fun k => ?_)
      rw [Lease.lowered, Lease.lowered, unmarked_cons hv, decide_eq_false (Ne.symm hn), Bool.false_or]
  · have hring : (((s.setCadenceCount m.slot l (l.cadenceCount - 1)).markVisited m.slot).poll.ring.map
        (RingMember.after ms)) = s.poll.ring.map (RingMember.after (m :: ms)) := by
      simp only [State.markVisited, State.setCadenceCount, State.putLease_poll, List.map_map]
      refine List.map_congr_left fun r _ => ?_
      simp only [Function.comp, RingMember.after, unmarked_cons hv]
      by_cases hr : r.slot = m.slot
      · simp [hr, unmarked_absent hm, RingMember.marked]
      · simp [hr, Ne.symm hr]
    rw [hring]
    rfl

/-- The count of each slot after the members have been passed. -/
theorem countOf (h : s.Passed ms t) (n : Slot) : t.countOf n = s.countOf n - if unmarked ms n then 1 else 0 := by
  obtain ⟨slots, hslots, rfl⟩ := h
  show ((slots[n]).map _).getD 0 = _
  rw [hslots, State.countOf]
  cases s.lease n with
  | none => simp
  | some l => by_cases hu : unmarked ms n <;> simp [Lease.lowered, hu]

/-- Once the whole ring has been passed every mark is set. -/
theorem whole (h : s.Passed s.poll.ring t) :
    ∃ slots : Vector (Option Lease) 64, (∀ n : Slot, slots[n] = (s.lease n).map (Lease.lowered s.poll.ring n)) ∧
      t = { s with
        table := { s.table with slots := slots }
        poll := { s.poll with ring := s.poll.ring.map RingMember.marked } } := by
  obtain ⟨slots, hslots, rfl⟩ := h
  refine ⟨slots, hslots, ?_⟩
  rw [List.map_congr_left fun r hr => RingMember.after_member hr]

/-- A ring that has been passed has its members still. -/
theorem slots_eq (h : s.Passed s.poll.ring t) : t.poll.slots = s.poll.slots := by
  obtain ⟨slots, -, rfl⟩ := h.whole
  exact List.map_map

end State.Passed

/-! ### A visit -/

section Visit
variable {s : State}

/-- Every member has a lease (R99). -/
theorem State.RingMatches.lease (hs : s.RingMatches) {r : RingMember} (hr : r ∈ s.poll.ring) :
    ∃ l, s.lease r.slot = some l := by
  have hbound := (hs.2 r.slot).mp (List.mem_map_of_mem hr)
  cases hl : s.lease r.slot with
  | none => simp [hl, isBound] at hbound
  | some l => exact ⟨l, rfl⟩

theorem countOf_lease {n : Slot} {l : Lease} (h : s.lease n = some l) : s.countOf n = l.cadenceCount := by
  simp [State.countOf, h]

/-- Members that are not due, each of another slot, are passed one after another. -/
theorem visit_passed {before : List RingMember} (hnodup : (before.map (fun r => r.slot)).Nodup)
    (h : ∀ r ∈ before, s.passes r = true) (rest : List RingMember) :
    ∃ t, s.Passed before t ∧ s.visit (before ++ rest) = t.visit rest := by
  induction before generalizing s with
  | nil => exact ⟨s, .nil s, rfl⟩
  | cons m ms ih =>
    obtain ⟨hm, hms⟩ := List.nodup_cons.mp hnodup
    have hpass := h m List.mem_cons_self
    have hrest : ∀ r ∈ ms, s.passes r = true := fun r hr => h r (List.mem_cons_of_mem m hr)
    cases hv : m.visited with
    | true =>
      obtain ⟨t, ht, hvisit⟩ := ih hms hrest
      refine ⟨t, ht.consVisited hv, Eq.trans ?_ hvisit⟩
      rw [List.cons_append, State.visit, if_pos hv]
    | false =>
      have hcount : 2 ≤ s.countOf m.slot := by simpa [State.passes, hv] using hpass
      obtain ⟨l, hl⟩ : ∃ l, s.lease m.slot = some l := by
        cases hl : s.lease m.slot with
        | none => simp [State.countOf, hl] at hcount
        | some l => exact ⟨l, rfl⟩
      rw [countOf_lease hl] at hcount
      have hothers : ∀ r ∈ ms,
          ((s.setCadenceCount m.slot l (l.cadenceCount - 1)).markVisited m.slot).passes r = true := by
        intro r hr
        have hne : r.slot ≠ m.slot := fun e => hm (List.mem_map.mpr ⟨r, hr, e⟩)
        have hlease : (s.putLease m.slot (some { l with cadenceCount := l.cadenceCount - 1 })).lease r.slot =
            s.lease r.slot := by rw [State.putLease_lease, if_neg hne]
        have hsame : ((s.setCadenceCount m.slot l (l.cadenceCount - 1)).markVisited m.slot).countOf r.slot =
            s.countOf r.slot := congrArg (fun o => (o.map (fun l => l.cadenceCount)).getD 0) hlease
        rw [State.passes, hsame]
        exact hrest r hr
      obtain ⟨t, ht, hvisit⟩ := ih hms hothers
      refine ⟨t, ht.consLowered hv hl hm, Eq.trans ?_ hvisit⟩
      rw [List.cons_append, State.visit, if_neg (by simp [hv])]
      simp only [hl]
      exact if_neg (by omega)

/-- The first member that is due becomes the pending poll, its count reloaded (R105). -/
theorem visit_named (hs : s.RingMatches) {before after : List RingMember} {m : RingMember}
    (hring : s.poll.ring = before ++ m :: after) (hpass : ∀ r ∈ before, s.passes r = true) (hdue : s.passes m = false) :
    ∃ slots : Vector (Option Lease) 64,
      (∀ n : Slot, slots[n] = (s.lease n).map (fun l =>
        if n = m.slot then { l with cadenceCount := l.cadence } else l.lowered before n)) ∧
      s.visit s.poll.ring = ({ s with
        table := { s.table with slots := slots }
        poll := { s.poll with
          ring := before.map RingMember.marked ++ m :: after, pending := some ⟨m.slot, false⟩ } }, true) := by
  obtain ⟨hv, hcount⟩ : m.visited = false ∧ s.countOf m.slot < 2 := by simpa [State.passes] using hdue
  obtain ⟨l, hl⟩ := hs.lease (r := m) (by simp [hring])
  have hnodup : (before.map (fun r => r.slot) ++ m.slot :: after.map (fun r => r.slot)).Nodup := by
    simpa [Scheduler.slots, hring] using hs.1
  obtain ⟨hbefore, -, hdisjoint⟩ := List.nodup_append.mp hnodup
  have hother (n : Slot) (hn : n ∈ m.slot :: after.map (fun r => r.slot)) : n ∉ before.map (fun r => r.slot) :=
    fun hb => hdisjoint n hb n hn rfl
  have hm := hother m.slot List.mem_cons_self
  have hmarks : s.poll.ring.map (RingMember.after before) = before.map RingMember.marked ++ m :: after := by
    rw [hring, List.map_append, List.map_cons, RingMember.after_other hm]
    congr 1
    · exact List.map_congr_left fun r hr => RingMember.after_member hr
    · refine congrArg _ ((List.map_congr_left fun r hr => ?_).trans (List.map_id after))
      exact RingMember.after_other (hother r.slot (List.mem_cons_of_mem _ (List.mem_map_of_mem hr)))
  obtain ⟨t, ⟨slots, hslots, ht⟩, hvisit⟩ := visit_passed hbefore hpass (m :: after)
  have hleases (n : Slot) : t.lease n = (s.lease n).map (Lease.lowered before n) := by
    rw [ht]
    exact hslots n
  have hlm : t.lease m.slot = some l := by rw [hleases, hl, Option.map_some, Lease.lowered_other hm]
  have hnamed : t.visit (m :: after) = ((t.setCadenceCount m.slot l l.cadence).namePoll m.slot, true) := by
    rw [State.visit, if_neg (by simp [hv])]
    simp only [hlm]
    exact if_pos (by rw [countOf_lease hl] at hcount; omega)
  refine ⟨(t.setCadenceCount m.slot l l.cadence).table.slots, fun n => ?_, ?_⟩
  · show (t.putLease m.slot _).lease n = _
    rw [State.putLease_lease]
    by_cases hn : n = m.slot
    · simp [hn, hl]
    · simp only [hn, if_false]
      exact hleases n
  · rw [hring, hvisit, hnamed, ht, hmarks]
    rfl

/-- With no member due the whole ring is passed. -/
theorem visit_ended (hs : s.RingMatches) (h : ∀ r ∈ s.poll.ring, s.passes r = true) :
    ∃ t, s.Passed s.poll.ring t ∧ s.visit s.poll.ring = (t, false) := by
  obtain ⟨t, ht, hvisit⟩ := visit_passed hs.1 h []
  rw [List.append_nil] at hvisit
  exact ⟨t, ht, hvisit⟩

end Visit

/-! ### A walk -/

section Walk
variable {s t : State}

/-- The state in which CONTINUOUS begins its next round, as a round ends (R107). -/
def State.nextRound (t : State) : State := t.countRound.clearMarks.setScheduler .round

/-- A walk that names a poll goes no further. -/
theorem walk_named (h : s.visit s.poll.ring = (t, true)) (fuel : Nat) : s.walk fuel = t := by
  cases fuel <;> simp only [State.walk, h]

/-- A walk outside CONTINUOUS, or over an empty ring, ends its round in WAIT. -/
theorem walk_waits (h : s.visit s.poll.ring = (t, false)) (hend : ¬(t.poll.mode = .continuous ∧ t.poll.ring ≠ []))
    (fuel : Nat) : s.walk fuel = t.countRound.setScheduler .wait := by
  cases fuel with
  | zero => simp only [State.walk, h]
  | succ fuel => simp only [State.walk, h, if_neg hend]

/-- A walk in CONTINUOUS over members goes on with the next round. -/
theorem walk_continues (h : s.visit s.poll.ring = (t, false)) (hmode : t.poll.mode = .continuous)
    (hring : t.poll.ring ≠ []) (fuel : Nat) : s.walk (fuel + 1) = t.nextRound.walk fuel := by
  simp only [State.walk, h, State.nextRound]
  exact if_pos ⟨hmode, hring⟩

/-- The bound of the rounds is the greatest count of a member, and at least 1. -/
theorem roundBound_le_iff {b : Nat} : s.roundBound ≤ b ↔ 1 ≤ b ∧ ∀ r ∈ s.poll.ring, s.countOf r.slot ≤ b := by
  have hfold (ring : List RingMember) (a : Nat) :
      ring.foldl (fun b m => match s.lease m.slot with | some l => max b l.cadenceCount | none => b) a ≤ b ↔
        a ≤ b ∧ ∀ r ∈ ring, s.countOf r.slot ≤ b := by
    induction ring generalizing a with
    | nil => simp
    | cons m ms ih =>
      rw [List.foldl_cons, ih, List.forall_mem_cons, ← and_assoc]
      refine and_congr_left fun _ => ?_
      cases hl : s.lease m.slot with
      | none => simp [State.countOf, hl]
      | some l => simp [State.countOf, hl]
  exact hfold s.poll.ring 1

/-- A round either names its first due member or passes every member. -/
theorem visit_cases (hs : s.RingMatches) :
    (∃ t, ∃ m ∈ s.poll.ring, s.passes m = false ∧ s.visit s.poll.ring = (t, true) ∧
      t.poll.pending = some ⟨m.slot, false⟩ ∧ t.poll.rounds = s.poll.rounds) ∨
    ((∀ r ∈ s.poll.ring, s.passes r = true) ∧ ∃ t, s.Passed s.poll.ring t ∧ s.visit s.poll.ring = (t, false)) := by
  cases hf : s.poll.ring.find? (fun r => !s.passes r) with
  | none =>
    have hpass : ∀ r ∈ s.poll.ring, s.passes r = true := by simpa using List.find?_eq_none.mp hf
    exact .inr ⟨hpass, visit_ended hs hpass⟩
  | some m =>
    obtain ⟨hdue, before, after, hring, hpass⟩ := List.find?_eq_some_iff_append.mp hf
    have hdue : s.passes m = false := by simpa using hdue
    obtain ⟨slots, -, hvisit⟩ := visit_named hs hring (fun r hr => by simpa using hpass r hr) hdue
    exact .inl ⟨_, m, by simp [hring], hdue, hvisit, rfl, rfl⟩

/-- The next round stands over the same members, every mark clear, each unmarked count one lower. -/
theorem State.Passed.nextRound (hs : s.RingMatches) (h : s.Passed s.poll.ring t) :
    t.nextRound.RingMatches ∧ t.nextRound.poll.slots = s.poll.slots ∧ t.nextRound.poll.mode = s.poll.mode ∧
      t.nextRound.poll.rounds = s.poll.rounds + 1 ∧ (∀ r ∈ t.nextRound.poll.ring, r.visited = false) ∧
      ∀ n, t.nextRound.countOf n = s.countOf n - if unmarked s.poll.ring n then 1 else 0 := by
  have hcount := h.countOf
  have hslots : t.nextRound.poll.slots = s.poll.slots := Eq.trans List.map_map h.slots_eq
  obtain ⟨slots, hlease, rfl⟩ := h
  refine ⟨?_, hslots, rfl, rfl, fun r hr => ?_, hcount⟩
  · refine State.KeepsRing.spare (fun n => ?_) (fun _ => .of_eq hslots) hs
    show isBound slots[n] = _
    rw [hlease]
    cases s.lease n with
    | none => rfl
    | some l => exact isBound_congr (by unfold Lease.lowered; split <;> rfl)
  · obtain ⟨k, -, rfl⟩ := List.mem_map.mp hr
    rfl

end Walk

end Sys2Proof.Machine

/-! ## Rounds of the walk (5.2) -/
namespace Sys2Proof.Machine
set_option Elab.async false

/-! ### Rounds in CONTINUOUS (R107) -/

section Rounds
variable {s t : State}

/-- A slot of the ring whose marks are clear is unmarked. -/
theorem unmarked_clear (hclear : ∀ r ∈ s.poll.ring, r.visited = false) {n : Slot} (hn : n ∈ s.poll.slots) :
    unmarked s.poll.ring n = true := by
  obtain ⟨r, hr, rfl⟩ := List.mem_map.mp hn
  exact unmarked_member hr (hclear r hr)

/-- A member that is passed with its mark clear is not due. -/
theorem two_le_countOf (hpass : ∀ r ∈ s.poll.ring, s.passes r = true) {n : Slot} (hn : unmarked s.poll.ring n = true) :
    2 ≤ s.countOf n := by
  obtain ⟨r, hr, h⟩ := List.any_eq_true.mp hn
  obtain ⟨rfl, hv⟩ : r.slot = n ∧ r.visited = false := by simpa using h
  simpa [State.passes, hv] using hpass r hr

/-- A ring that has been passed is not empty when it was not before. -/
theorem State.Passed.ring_ne_nil (h : s.Passed s.poll.ring t) (hring : s.poll.ring ≠ []) : t.poll.ring ≠ [] := by
  obtain ⟨slots, -, rfl⟩ := h.whole
  exact fun e => hring (List.map_eq_nil_iff.mp e)

/-- The bound of the rounds beyond a member's count does not matter: its poll has been named by then. -/
theorem walk_fuel (hs : s.RingMatches) (hclear : ∀ r ∈ s.poll.ring, r.visited = false)
    (hmode : s.poll.mode = .continuous) {n : Slot} (hn : n ∈ s.poll.slots) {f : Nat} (hf : s.countOf n ≤ f + 1) :
    ∀ g, f ≤ g → s.walk g = s.walk f := by
  induction f generalizing s with
  | zero =>
    intro g _
    rcases visit_cases hs with ⟨t, m, -, -, hvisit, -⟩ | ⟨hpass, -⟩
    · rw [walk_named hvisit, walk_named hvisit]
    · have h2 := two_le_countOf hpass (unmarked_clear hclear hn)
      omega
  | succ f ih =>
    intro g hg
    obtain ⟨g, rfl⟩ : ∃ g', g = g' + 1 := ⟨g - 1, by omega⟩
    rcases visit_cases hs with ⟨t, m, -, -, hvisit, -⟩ | ⟨hpass, t, ht, hvisit⟩
    · rw [walk_named hvisit, walk_named hvisit]
    · obtain ⟨hmatch, hslots, hmode', -, hclear', hcount⟩ := ht.nextRound hs
      have hring : t.poll.ring ≠ [] := ht.ring_ne_nil fun e => by simp [Scheduler.slots, e] at hn
      have htmode : t.poll.mode = .continuous := hmode'.trans hmode
      rw [walk_continues hvisit htmode hring, walk_continues hvisit htmode hring]
      refine ih hmatch hclear' htmode (hslots ▸ hn) ?_ g (by omega)
      rw [hcount, unmarked_clear hclear hn, if_pos rfl]
      omega

/-- A round in CONTINUOUS that ends without a poll is followed by the next round's own walk step. -/
theorem walkStep_continues (hs : s.RingMatches) (hmode : s.poll.mode = .continuous)
    (hring : s.poll.ring ≠ []) (ht : s.Passed s.poll.ring t)
    (hvisit : s.visit s.poll.ring = (t, false)) : s.walkStep = t.nextRound.walkStep := by
  obtain ⟨hmatch, hslots, hmode', -, hclear, hcount⟩ := ht.nextRound hs
  obtain ⟨r, hr⟩ := List.exists_mem_of_ne_nil _ (show t.nextRound.poll.ring ≠ [] from fun e => hring <| by
    simpa [Scheduler.slots, e] using hslots.symm)
  have hn : r.slot ∈ t.nextRound.poll.slots := List.mem_map_of_mem hr
  obtain ⟨k, hk, hkr⟩ := List.mem_map.mp (hslots ▸ hn)
  have hlower : t.nextRound.countOf r.slot ≤ s.countOf r.slot := by
    rw [hcount]
    exact Nat.sub_le _ _
  obtain ⟨hone, hbound⟩ := roundBound_le_iff.mp (Nat.le_refl s.roundBound)
  have hbound := hkr ▸ hbound k hk
  have hbound' := (roundBound_le_iff.mp (Nat.le_refl t.nextRound.roundBound)).2 r hr
  have hmode : t.poll.mode = .continuous := hmode'.trans hmode
  have reached := walk_fuel hmatch hclear hmode hn (f := t.nextRound.countOf r.slot - 1) (by omega)
  calc s.walk s.roundBound
      = s.walk (s.roundBound - 1 + 1) := by rw [Nat.sub_add_cancel hone]
    _ = t.nextRound.walk (s.roundBound - 1) := walk_continues hvisit hmode (ht.ring_ne_nil hring) _
    _ = t.nextRound.walk (t.nextRound.countOf r.slot - 1) := reached _ (by omega)
    _ = t.nextRound.walk t.nextRound.roundBound := (reached _ (by omega)).symm

/-- From clear marks as many rounds end as the least count of a member exceeds 1, and then its poll is named. -/
theorem walk_reaches (hs : s.RingMatches) (hclear : ∀ r ∈ s.poll.ring, r.visited = false)
    (hmode : s.poll.mode = .continuous) (hpos : ∀ n ∈ s.poll.slots, 1 ≤ s.countOf n) {n : Slot}
    (hn : n ∈ s.poll.slots) {f : Nat} (hf : s.countOf n ≤ f + 1) :
    ∃ ended m, (s.walk f).poll.rounds = s.poll.rounds + BitVec.ofNat 16 ended ∧
      (s.walk f).poll.pending = some ⟨m, false⟩ ∧ m ∈ s.poll.slots ∧ s.countOf m = ended + 1 ∧
      ∀ k ∈ s.poll.slots, ended + 1 ≤ s.countOf k := by
  induction f generalizing s with
  | zero =>
    rcases visit_cases hs with ⟨t, m, hm, hdue, hvisit, hpending, hrounds⟩ | ⟨hpass, -⟩
    · exact due hpos hm hdue hvisit hpending hrounds 0
    · have h2 := two_le_countOf hpass (unmarked_clear hclear hn)
      omega
  | succ f ih =>
    rcases visit_cases hs with ⟨t, m, hm, hdue, hvisit, hpending, hrounds⟩ | ⟨hpass, t, ht, hvisit⟩
    · exact due hpos hm hdue hvisit hpending hrounds _
    · obtain ⟨hmatch, hslots, hmode', hround, hclear', hcount⟩ := ht.nextRound hs
      have htmode : t.poll.mode = .continuous := hmode'.trans hmode
      have hring : t.poll.ring ≠ [] := ht.ring_ne_nil fun e => by simp [Scheduler.slots, e] at hn
      have hlower (k : Slot) (hk : k ∈ s.poll.slots) : t.nextRound.countOf k + 1 = s.countOf k := by
        have hk' := unmarked_clear hclear hk
        have h2 := two_le_countOf hpass hk'
        rw [hcount, if_pos hk']
        omega
      have hpos' : ∀ k ∈ t.nextRound.poll.slots, 1 ≤ t.nextRound.countOf k := fun k hk => by
        have h2 := two_le_countOf hpass (unmarked_clear hclear (hslots ▸ hk))
        have h1 := hlower k (hslots ▸ hk)
        omega
      obtain ⟨ended, m, hrounds, hpending, hm, hcm, hleast⟩ := ih hmatch hclear' htmode hpos' (hslots ▸ hn)
        (by have h1 := hlower n hn; omega)
      rw [hslots] at hm hleast
      rw [walk_continues hvisit htmode hring]
      refine ⟨ended + 1, m, ?_, hpending, hm, by rw [← hlower m hm, hcm], fun k hk => ?_⟩
      · rw [hrounds, hround, BitVec.add_assoc, Nat.add_comm, BitVec.ofNat_add]
        rfl
      · rw [← hlower k hk]
        exact Nat.succ_le_succ (hleast k hk)
where
  due {s t : State} {m : RingMember} (hpos : ∀ n ∈ s.poll.slots, 1 ≤ s.countOf n) (hm : m ∈ s.poll.ring)
      (hdue : s.passes m = false) (hvisit : s.visit s.poll.ring = (t, true))
      (hpending : t.poll.pending = some ⟨m.slot, false⟩) (hrounds : t.poll.rounds = s.poll.rounds) (f : Nat) :
      ∃ ended m, (s.walk f).poll.rounds = s.poll.rounds + BitVec.ofNat 16 ended ∧
        (s.walk f).poll.pending = some ⟨m, false⟩ ∧ m ∈ s.poll.slots ∧ s.countOf m = ended + 1 ∧
        ∀ k ∈ s.poll.slots, ended + 1 ≤ s.countOf k := by
    have hmem : m.slot ∈ s.poll.slots := List.mem_map_of_mem hm
    have hcount : s.countOf m.slot < 2 := (by simpa [State.passes] using hdue : _ ∧ _).2
    have h1 := hpos _ hmem
    rw [walk_named hvisit]
    exact ⟨0, m.slot, by simpa using hrounds, hpending, hmem, by omega, hpos⟩

end Rounds

/-- Settles O30: a walk step is its visit, and then the round's end where no member was due. -/
theorem walkStepNamesTheFirstDueMember : Obligations.WalkStepNamesTheFirstDueMember := by
  refine ⟨fun s => ⟨rfl, fun hstate hpending => if_pos ⟨hstate, hpending⟩, fun h => if_neg fun hc => ?_⟩, fun s hs => ?_⟩
  · rcases h with h | h
    · exact h hc.1
    · exact h hc.2
  intro passed lower mark
  refine ⟨fun before m after hring hpass hdue => ?_, fun hpass hend => ?_, fun hpass hmode hring => ?_⟩
  · obtain ⟨slots, hslots, hvisit⟩ := visit_named hs hring (List.all_eq_true.mp hpass) hdue
    exact ⟨slots, hslots, walk_named hvisit _⟩
  · obtain ⟨t, ht, hvisit⟩ := visit_ended hs (List.all_eq_true.mp hpass)
    obtain ⟨slots, hslots, rfl⟩ := ht.whole
    refine ⟨slots, hslots, walk_waits hvisit (fun hc => ?_) _⟩
    rcases hend with hmode | hring
    · exact hmode hc.1
    · exact hc.2 (by rw [hring]; rfl)
  · obtain ⟨t, ht, hvisit⟩ := visit_ended hs (List.all_eq_true.mp hpass)
    have hnext := walkStep_continues hs hmode hring ht hvisit
    obtain ⟨slots, hslots, rfl⟩ := ht.whole
    have hclear : (s.poll.ring.map RingMember.marked).map (fun r => { r with visited := false }) =
        s.poll.ring.map (fun r => { r with visited := false }) := List.map_map
    refine ⟨slots, hslots, hnext.trans ?_⟩
    rw [← hclear]
    rfl

/-- Settles O31: the round in hand may end, and from clear marks the least count of a member says how many more. -/
theorem continuousRoundsReachADueMember : Obligations.ContinuousRoundsReachADueMember := by
  intro s hs hrange hmode hring _
  have hcounts (n : Slot) (hn : n ∈ s.poll.slots) : 1 ≤ s.countOf n ∧ s.countOf n ≤ 8 := by
    obtain ⟨r, hr, rfl⟩ := List.mem_map.mp hn
    obtain ⟨l, hl⟩ := hs.lease hr
    obtain ⟨-, -, hmost, hleast, hle, -⟩ := Lease.inRange_iff.mp (hrange.1 _ l hl)
    rw [countOf_lease hl]
    omega
  rcases visit_cases hs with ⟨t, m, hm, hdue, hvisit, hpending, hrounds⟩ | ⟨hpass, t, ht, hvisit⟩
  · have hmem : m.slot ∈ s.poll.slots := List.mem_map_of_mem hm
    obtain ⟨hv, hcount⟩ : m.visited = false ∧ s.countOf m.slot < 2 := by simpa [State.passes] using hdue
    have h1 := (hcounts _ hmem).1
    have hone : s.countOf m.slot = 1 := by omega
    have hstep : s.walkStep = t := walk_named hvisit _
    refine ⟨0, m.slot, by omega, by rw [hstep, hrounds]; simp, by rw [hstep, hpending], hmem,
      iff_of_true rfl ⟨m, hm, hv, hone⟩, fun _ => ⟨by omega, hone, fun r hr => (hcounts _ (List.mem_map_of_mem hr)).1⟩⟩
  · obtain ⟨hmatch, hslots, hmode', hround, hclear, hcount⟩ := ht.nextRound hs
    have hpos : ∀ n ∈ t.nextRound.poll.slots, 1 ≤ t.nextRound.countOf n := fun n hn => by
      have h1 := (hcounts n (hslots ▸ hn)).1
      rw [hcount]
      split
      · next hu =>
        have h2 := two_le_countOf hpass hu
        omega
      · exact h1
    obtain ⟨r, hr⟩ := List.exists_mem_of_ne_nil _ hring
    have hn : r.slot ∈ t.nextRound.poll.slots := hslots ▸ List.mem_map_of_mem hr
    have hbound : t.nextRound.countOf r.slot ≤ t.nextRound.roundBound := by
      obtain ⟨k, hk, hkr⟩ := List.mem_map.mp hn
      exact hkr ▸ (roundBound_le_iff.mp (Nat.le_refl _)).2 k hk
    obtain ⟨ended, m, hrounds, hpending, hm, hcm, hleast⟩ :=
      walk_reaches hmatch hclear (hmode'.trans hmode) hpos hn (Nat.le_succ_of_le hbound)
    rw [hslots] at hm hleast
    have hstep : s.walkStep = t.nextRound.walk t.nextRound.roundBound := walkStep_continues hs hmode hring ht hvisit
    have hmost := (hcounts m hm).2
    refine ⟨ended + 1, m, ?_, ?_, hstep ▸ hpending, hm, iff_of_false (Nat.succ_ne_zero ended) ?_, fun hall => ?_⟩
    · rw [hcount] at hcm
      omega
    · rw [hstep, hrounds, hround, BitVec.add_assoc, Nat.add_comm, BitVec.ofNat_add]
      rfl
    · rintro ⟨r, hr, hv, hone⟩
      have h2 := two_le_countOf hpass (unmarked_member hr hv)
      omega
    · have hlower (n : Slot) (hn : n ∈ s.poll.slots) : t.nextRound.countOf n + 1 = s.countOf n := by
        have hu := unmarked_clear hall hn
        have h2 := two_le_countOf hpass hu
        rw [hcount, if_pos hu]
        omega
      have hlm := hlower m hm
      refine ⟨by omega, by omega, fun r hr => ?_⟩
      have hr' : r.slot ∈ s.poll.slots := List.mem_map_of_mem hr
      have h1 := hlower r.slot hr'
      have h2 := hleast r.slot hr'
      omega

end Sys2Proof.Machine

/-! ## The outcome of a poll, and the quality window (5.3, 5.4) -/
namespace Sys2Proof.Machine
set_option Elab.async false

/-- No lease is found where none has the captured identity and address (R7). -/
theorem matched_eq_none {s : State} {n : Slot} {x : Identity} {a : TrunkAddress}
    (h : ∀ l ∈ s.lease n, l.identity ≠ x ∨ .station l.address ≠ a) : s.matched n x a = none := by
  cases hm : s.matched n x a with
  | none => rfl
  | some l =>
    obtain ⟨hl, hx, ha⟩ := matched_iff.mp hm
    rcases h l hl with hne | hne
    · exact absurd hx hne
    · exact absurd ha hne

/-! ### The outcome of a poll (R113 to R117) -/

section Poll
variable {s : State} {t : Txn} {n : Slot} {x : Identity} {l : Lease} {o : AttemptOutcome}

/-- A poll's outcome is applied to its lease and taken by the scheduler, and the walk goes on. -/
theorem txnDone_poll (hk : t.kind = .poll) (hn : t.slot = some n) (o : AttemptOutcome) :
    s.txnDone t o = ((s.pollEffect t o).pollTaken n).pollSettle := by
  simp only [State.txnDone, hk, State.pollDone, hn]

/-- The pending poll in flight is cleared and its member marked; otherwise the detached poll ends (R111, R114). -/
theorem pollTaken_eq (u : State) (n : Slot) : u.pollTaken n =
    match u.poll.pending with
    | some ⟨_, true⟩ => { u with poll := { u.poll with
        pending := none
        ring := u.poll.ring.map (fun m => if m.slot = n then { m with visited := true } else m) } }
    | _ => { u with poll := { u.poll with detached := none } } := by
  rw [State.pollTaken]
  rcases u.poll.pending with _ | ⟨m, _ | _⟩ <;> rfl

/-- The lease that a poll finds BOUND or SUSPECT as captured, by the outcome. -/
theorem pollEffect_captured (hn : t.slot = some n) (hx : t.identity = some x) (hl : s.lease n = some l)
    (hid : l.identity = x) (ha : .station l.address = t.address) {term miss : Nat}
    (hst : l.status = .bound term miss ∨ l.status = .suspect term miss) : s.pollEffect t o =
      match o with
      | .good => s.renew n l (decide (l.status = .suspect term miss))
          (halfOf ((t.reply.getD []).getD 0 0) ((t.reply.getD []).getD 1 0))
      | .lineFault => s
      | _ => s.countMiss n l term miss (decide (l.status = .suspect term miss)) := by
  simp only [State.pollEffect, hn, hx, matched_iff.mpr ⟨hl, hid, ha⟩]
  rcases hst with hst | hst <;> cases o <;> simp [hst]

/-- A poll finds no other lease. -/
theorem pollEffect_other (hn : t.slot = some n) (hx : t.identity = some x)
    (h : ∀ l ∈ s.lease n, l.identity ≠ x ∨ .station l.address ≠ t.address ∨ isBound (some l) = false) :
    s.pollEffect t o = s := by
  simp only [State.pollEffect, hn, hx]
  split
  · rfl
  · next l hm =>
    obtain ⟨hl, hid, ha⟩ := matched_iff.mp hm
    have hbound : isBound (some l) = false := (h l hl).resolve_left (absurd hid) |>.resolve_left (absurd ha)
    cases hst : l.status with
    | bound term miss => simp [isBound, hst] at hbound
    | suspect term miss => simp [isBound, hst] at hbound
    | _ => rfl

section Miss
variable {term miss : Nat} {wasSuspect : Bool}

theorem countMiss_lost (h : s.params.lostAfter ≤ miss + 1) :
    s.countMiss n l term miss wasSuspect = s.loseLease n l (term + s.params.quarantineMin) := if_pos h

theorem countMiss_suspect (h : miss + 1 < s.params.lostAfter) :
    s.countMiss n l term miss true = s.putLease n (some { l with status := .suspect term (miss + 1) }) :=
  if_neg (Nat.not_le.mpr h)

theorem countMiss_bound (h : miss + 1 < s.params.lostAfter) : s.countMiss n l term miss false =
    if s.params.suspectAfter ≤ miss + 1 then s.changeStatus n l (.suspect term (miss + 1))
    else s.putLease n (some { l with status := .bound term (miss + 1) }) := if_neg (Nat.not_le.mpr h)

end Miss
end Poll

/-- Settles O49: what the outcome does to the lease, and then the scheduler's part. -/
theorem pollOutcomeRenewsOrCountsAMiss : Obligations.PollOutcomeRenewsOrCountsAMiss := by
  intro s t n x o hk hn hx taken failed
  have done {u : State} (hu : s.pollEffect t o = u) : s.txnDone t o = taken u :=
    (txnDone_poll hk hn o).trans (hu ▸ congrArg State.pollSettle (pollTaken_eq _ n))
  refine ⟨fun l term miss hl hid ha hst => ?_, fun h => done (pollEffect_other hn hx h)⟩
  have effect := pollEffect_captured (o := o) hn hx hl hid ha hst
  have missed (h : failed) : s.pollEffect t o =
      s.countMiss n l term miss (decide (l.status = .suspect term miss)) := by
    rcases h with rfl | ⟨r, rfl⟩ <;> exact effect
  refine ⟨?good, fun h hlost => ?lost, fun h hless hbound hmany => ?suspected, fun h hless hbound hfew => ?counted,
    fun h hless hsuspect => ?again, ?fault⟩
  case good =>
    rintro rfl lo hi hreply
    refine done ?_
    simp only [effect, hreply]
    by_cases hs : l.status = .suspect term miss <;> simp only [hs, decide_true, decide_false] <;> rfl
  case lost => exact done ((missed h).trans (countMiss_lost hlost))
  case suspected =>
    refine done ((missed h).trans ?_)
    rw [decide_eq_false (by rw [hbound]; nofun), countMiss_bound hless, if_pos hmany]
    rfl
  case counted =>
    refine done ((missed h).trans ?_)
    rw [decide_eq_false (by rw [hbound]; nofun), countMiss_bound hless, if_neg (Nat.not_le.mpr hfew)]
  case again =>
    refine done ((missed h).trans ?_)
    rw [decide_eq_true hsuspect, countMiss_suspect hless]
  case fault =>
    rintro rfl
    exact done effect

/-! ### The quality window (R120 to R122) -/

/-- The attempt of a lease that holds the captured identity and address is counted, and a full window closes. -/
theorem countAttempt_matched {s : State} {n : Slot} {x : Identity} {a : TrunkAddress} {l : Lease}
    (h : s.matched n x a = some l) (bad : Bool) : s.countAttempt n x a bad =
      let bads := l.windowBad + (if bad then 1 else 0)
      let poor := decide (s.params.qualityLimit ≠ 0 ∧ s.params.qualityLimit < bads)
      let closed : State := s.putLease n (some { l with
        windowAttempts := 0, windowBad := 0, lastWindowBad := some bads, windowsClosed := l.windowsClosed + 1, poor := poor })
      let judged := if poor = l.poor then closed else closed.handOver n .quality
      if l.windowAttempts + 1 = s.params.windowSize then if poor && !l.poor then judged.raise .poorLine else judged
      else s.putLease n (some { l with windowAttempts := l.windowAttempts + 1, windowBad := bads }) := by
  simp only [State.countAttempt, h]
  cases bad <;> rfl

/-- Settles O52: the counts, and at the window's size its close, by whether poor changes and how. -/
theorem qualityWindowCountsAndCloses : Obligations.QualityWindowCountsAndCloses := by
  refine fun s n x a bad => ⟨fun h => ?_, fun l hl hx ha => ?_⟩
  · rw [State.countAttempt, matched_eq_none h]
  · intro bads poor closed
    have counted := countAttempt_matched (matched_iff.mpr ⟨hl, hx, ha⟩) bad
    have full (hfull : l.windowAttempts + 1 = s.params.windowSize) : s.countAttempt n x a bad =
        if poor && !l.poor then State.raise .poorLine (if poor = l.poor then closed else closed.handOver n .quality)
        else if poor = l.poor then closed else closed.handOver n .quality := counted.trans (if_pos hfull)
    refine ⟨fun hopen => counted.trans (if_neg hopen), fun hfull hsame => ?_, fun hfull hgood hpoor => ?_,
      fun hfull hbad hgood => ?_⟩
    · rw [full hfull, hsame]
      simp
    · rw [full hfull, hgood, hpoor]
      simp
    · rw [full hfull, hbad, hgood]
      simp only [Bool.not_false, Bool.and_self, if_true]
      rfl

end Sys2Proof.Machine

/-! ## The walk of the census (6.1, 6.2)

The search of the sweep order is taken address by address, and a walk step by what it finds. -/
namespace Sys2Proof.Machine
set_option Elab.async false

/-! ### The search of the sweep order (R128, R129) -/

section Search
variable {s : State} {a : Address}

/-- An address with no holder is probeable. -/
theorem probeable_of_not_held (h : ∀ n, s.entry a ≠ .held n) : s.probeable a = true := by
  unfold State.probeable
  split
  · rfl
  · rfl
  · next n he => exact absurd he (h n)

/-- An address with a holder is probeable when the lease in its slot is LOST. -/
theorem probeable_held {n : Slot} (h : s.entry a = .held n) :
    s.probeable a = true ↔ ∃ l q, s.lease n = some l ∧ l.status = .lost q := by
  simp only [State.probeable, h]
  cases s.lease n with
  | none => simp
  | some l => cases hst : l.status <;> simp [hst]

/-- Counting `d` addresses on from the next one counts `d + 1` from here. -/
theorem nextAddress_add (a : Address) (d : Nat) : nextAddress a + Fin.ofNat 126 d = a + Fin.ofNat 126 (d + 1) := by
  refine Fin.ext ?_
  simp only [nextAddress, Fin.val_add, Fin.val_ofNat, Fin.val_one, Config.addresses]
  omega

/-- From the address after `a` it is one step less to `last`. -/
theorem steps_nextAddress {last : Address} {d : Nat} (h : d + 1 ≤ (last - a).val) :
    d ≤ (last - nextAddress a).val ∧ a ≠ last := by
  have ha : a.val < 126 := a.isLt
  have hl : last.val < 126 := last.isLt
  simp only [nextAddress, Fin.sub_def, Fin.val_add, Fin.val_one, Config.addresses] at h ⊢
  refine ⟨by omega, ?_⟩
  rintro rfl
  omega

/-- The search comes to the `d`-th address when it passes those before it, and does not pass `last`. -/
theorem seekProbe_reaches {last : Address} {d fuel : Nat} (hfuel : d < fuel) (hd : d ≤ (last - a).val)
    (hskip : ∀ e < d, ¬s.probeable (a + Fin.ofNat 126 e) = true) :
    ∃ more, s.seekProbe last fuel a = s.seekProbe last (more + 1) (a + Fin.ofNat 126 d) := by
  induction d generalizing a fuel with
  | zero => exact ⟨fuel - 1, by rw [Nat.sub_add_cancel hfuel]; simp⟩
  | succ d ih =>
    obtain ⟨hd', hne⟩ := steps_nextAddress hd
    have here : ¬s.probeable a = true := by simpa using hskip 0 d.succ_pos
    obtain ⟨fuel, rfl⟩ := Nat.exists_eq_succ_of_ne_zero (Nat.ne_zero_of_lt hfuel)
    rw [State.seekProbe, if_neg here, if_neg hne, ← nextAddress_add]
    exact ih (Nat.lt_of_succ_lt_succ hfuel) hd' fun e he => nextAddress_add a e ▸ hskip (e + 1) (Nat.succ_lt_succ he)

/-- A walk that does not stand beyond `last` finds the first probeable address up to `last`. -/
theorem nextProbe_first {d : Nat} (hb : s.census.beyond = false) (hd : d ≤ (s.census.last - s.census.cursor).val)
    (hp : s.probeable (s.census.cursor + Fin.ofNat 126 d) = true)
    (hfirst : ∀ e < d, ¬s.probeable (s.census.cursor + Fin.ofNat 126 e) = true) :
    s.nextProbe = some (s.census.cursor + Fin.ofNat 126 d) := by
  obtain ⟨more, reached⟩ := seekProbe_reaches (hd.trans_lt (s.census.last - s.census.cursor).isLt) hd hfirst
  rw [State.nextProbe, hb, reached, State.seekProbe, if_pos hp]
  rfl

/-- A walk finds nothing beyond `last`, and nothing when no address up to `last` is probeable. -/
theorem nextProbe_none (h : s.census.beyond = true ∨ ∀ d ≤ (s.census.last - s.census.cursor).val,
    ¬s.probeable (s.census.cursor + Fin.ofNat 126 d) = true) : s.nextProbe = none := by
  rcases h with hb | hnone
  · rw [State.nextProbe, if_pos hb]
  · have hlast : s.census.cursor + Fin.ofNat 126 (s.census.last - s.census.cursor).val = s.census.last := by
      rw [Fin.ofNat_val_eq_self]
      exact add_sub_cancel _ _
    obtain ⟨more, reached⟩ := seekProbe_reaches (s.census.last - s.census.cursor).isLt le_rfl fun e he => hnone e he.le
    rw [State.nextProbe, reached, State.seekProbe, if_neg (hnone _ le_rfl), if_pos hlast, ite_self]

end Search

/-! ### A walk step (R129, R132) -/

section Walk
variable {s : State}

/-- A walk step that finds an address names it. -/
theorem censusWalk_names {a : Address} (h : s.nextProbe = some a) : s.censusWalk = s.nameProbe a := by
  rw [State.censusWalk, if_neg (by rw [h]; nofun), State.walkOrWait, h]

/-- A walk step that finds no address ends the pass, and begins the next one in CONTINUOUS when a probe was named. -/
theorem censusWalk_ends (h : s.nextProbe = none) : s.censusWalk =
    if s.census.mode = .continuous ∧ s.census.probeNamed = true then s.endPass.censusWalk
    else s.endPass.setCensus (if s.census.mode = .onceR ∨ s.census.mode = .once then .idle else .waitStep) := by
  by_cases hc : s.census.mode = .continuous ∧ s.census.probeNamed = true
  · have once : ¬(s.endPass.nextProbe = none ∧ s.endPass.census.mode = .continuous ∧ s.endPass.census.probeNamed = true) :=
      fun hagain => nomatch hagain.2.2
    rw [if_pos hc, State.censusWalk, if_pos ⟨h, hc⟩, State.censusWalk, if_neg once]
  · rw [if_neg hc, State.censusWalk, if_neg fun hall => hc hall.2, State.walkOrWait, h]
    cases s.census.mode <;> rfl

end Walk

/-- Settles O33: the search finds the first probeable address or none, and the walk step follows what it finds. -/
theorem censusWalkFollowsTheSweepOrder : Obligations.CensusWalkFollowsTheSweepOrder := by
  intro s probeable steps
  have hp (a : Address) : s.probeable a = true ↔ probeable a := by
    cases he : s.entry a with
    | held n => simpa only [probeable, he] using probeable_held he
    | free => simp [probeable, he, probeable_of_not_held]
    | quarantined q => simp [probeable, he, probeable_of_not_held]
  refine ⟨fun hb d hd hprobe hfirst => ?_, fun hend => ?_⟩
  · exact censusWalk_names (nextProbe_first hb hd ((hp _).mpr hprobe) fun e he hpe => hfirst e he ((hp _).mp hpe))
  · have walk := censusWalk_ends (nextProbe_none (hend.imp_right fun hnone d hd hpd => hnone d hd ((hp _).mp hpd)))
    intro ended
    refine ⟨fun hm => ?_, fun hm => ?_, fun hm hno => ?_, fun hm hyes => ?_⟩
    · have hc : s.census.mode ≠ .continuous := by rcases hm with hm | hm <;> rw [hm] <;> nofun
      rw [walk, if_neg fun h => hc h.1, if_pos hm]
      rfl
    · rw [walk, if_neg (by simp [hm]), if_neg (by simp [hm])]
      rfl
    · rw [walk, if_neg (by simp [hno]), if_neg (by simp [hm])]
      rfl
    · rw [walk, if_pos ⟨hm, hyes⟩]
      rfl

end Sys2Proof.Machine

/-! ## The requests of the Census Unit (6.2, 6.5) -/
namespace Sys2Proof.Machine
set_option Elab.async false

/-! ### CENSUS_START (R130, R131) -/

/-- A byte above 3 names no census mode (Table 9-7). -/
theorem CensusMode.ofCode_none {m : Byte} (h : 3 < m.toNat) : CensusMode.ofCode m = none := by
  have other (n : Nat) (hn : n ≤ 3) : m ≠ BitVec.ofNat 8 n := by
    rintro rfl
    rw [BitVec.toNat_ofNat] at h
    omega
  simp [CensusMode.ofCode, other 0, other 1, other 2, other 3]

theorem CensusMode.ofCode_code (mode : CensusMode) : CensusMode.ofCode mode.code = some mode := by
  cases mode <;> rfl

/-- Arguments that name no range or no mode are refused. -/
theorem censusStartRequest_badArg {s : State} {tag f l m : Byte}
    (h : addressOf f = none ∨ addressOf l = none ∨ CensusMode.ofCode m = none) :
    censusStartRequest tag [f, l, m] s = s.answer .censusStart tag .badArg [] := by
  rw [censusStartRequest]
  split
  · next hf hl hm => simp [hf, hl, hm] at h
  · rfl

section Start
variable {s : State} {tag f l m : Byte} {first last : Address} {mode : CensusMode}

/-- With a range and a mode a sweep begins or restarts, or the unit is busy. -/
theorem censusStartRequest_sweep (hf : f.toNat = addressNumber first) (hl : l.toNat = addressNumber last)
    (hm : mode.code = m) :
    let t := s.beginSweep first last mode
    let done (restart : Byte) : State := t.answer .censusStart tag .ok [t.census.state.code, t.cursorByte, restart]
    censusStartRequest tag [f, l, m] s =
      if s.census.state = .idle then done 0
      else if s.census.mode = .onceR then done 1
      else s.answer .censusStart tag .busy [] := by
  subst hm
  simp only [censusStartRequest, addressOf_of_number hf, addressOf_of_number hl, CensusMode.ofCode_code]

end Start

/-- A probe in flight runs on as the detached one (R131, R144). -/
theorem Census.detach_eq (c : Census) : c.detach =
    match c.pending with
    | some ⟨a, true⟩ => some a
    | _ => c.detached := by
  rw [Census.detach]
  rcases c.pending with _ | ⟨a, _ | _⟩ <;> rfl

/-- A sweep begins with a walk step, but in STEPPED it waits for a step. -/
theorem beginSweep_eq (s : State) (first last : Address) (mode : CensusMode) : s.beginSweep first last mode =
    let begun : State := { s with census := {
      state := .waitStep, mode := mode, first := first, last := last, cursor := first, beyond := false
      stepPending := false, probeNamed := false, passes := 0, adopted := 0, pending := none
      detached := s.census.detach } }
    if mode = .stepped then begun else begun.censusWalk := by
  cases mode <;> rfl

/-! ### CENSUS_STEP (R134) -/

section Step
variable {s : State} {tag : Byte}

/-- A step of a census that waits for one is a walk step (R133). -/
theorem takeStep_waitStep (h : s.census.state = .waitStep) : s.takeStep = s.censusWalk := by
  simp only [State.takeStep, h]

/-- A step of a census that runs is kept until the probe ends (R133). -/
theorem takeStep_running (h : s.census.state = .running) :
    s.takeStep = { s with census := { s.census with stepPending := true } } := by
  simp only [State.takeStep, h]

/-- A step of a census that keeps one already is lost (R133). -/
theorem takeStep_kept (h : s.census.state = .running) (hp : s.census.stepPending = true) : s.takeStep = s := by
  rw [takeStep_running h, ← hp]

theorem stepResult_waitStep (h : s.census.state = .waitStep) : s.stepResult = 0 := by
  simp only [State.stepResult, h]

theorem stepResult_running (h : s.census.state = .running) : s.stepResult = if s.census.stepPending then 2 else 1 := by
  simp only [State.stepResult, h]

/-- CENSUS_STEP where the host gives no steps. -/
theorem censusStepRequest_elsewhere (h : s.census.mode ≠ .stepped ∨ s.params.stepSource = 0 ∨ s.census.state = .idle) :
    censusStepRequest tag [] s = s.answer .censusStep tag .badState [] := if_pos h

/-- CENSUS_STEP where the host gives the steps. -/
theorem censusStepRequest_stepped (hm : s.census.mode = .stepped) (hsource : s.params.stepSource ≠ 0)
    (hs : s.census.state ≠ .idle) : censusStepRequest tag [] s =
      s.takeStep.answer .censusStep tag .ok [s.stepResult, s.takeStep.census.state.code, s.takeStep.cursorByte] :=
  if_neg (by simp [hm, hsource, hs])

end Step

/-! ### CENSUS_STATUS (R145) -/

/-- The probe flags: bit 0 a probe that waits, bit 1 one in flight, bit 2 a detached one (Table 9-7). -/
theorem Census.probeFlags_eq (c : Census) : c.probeFlags =
    (match c.pending with
      | none => 0
      | some ⟨_, false⟩ => 1
      | some ⟨_, true⟩ => 2) + (if c.detached.isSome then 4 else 0) := by
  rw [Census.probeFlags]
  rcases c.pending with _ | ⟨a, _ | _⟩ <;> cases c.detached <;> rfl

/-- Settles O32: each request by the condition that its answer turns on. -/
theorem censusRequestsStartStopAndStep : Obligations.CensusRequestsStartStopAndStep := by
  refine ⟨rfl, rfl, fun s k tag f l m rest h => ⟨fun hbad => ?_, fun first last mode hf hl hm => ?start⟩,
    fun s k tag rest => ⟨fun h => ?stop, fun h => ?step, fun h => ?status⟩⟩
  · rw [exec_censusStart h, censusStartRequest_badArg]
    · rfl
    · rcases hbad with hf | hf | hl | hl | hm
      · exact .inl (addressOf_outside (.inl hf))
      · exact .inl (addressOf_outside (.inr hf))
      · exact .inr (.inl (addressOf_outside (.inl hl)))
      · exact .inr (.inl (addressOf_outside (.inr hl)))
      · exact .inr (.inr (CensusMode.ofCode_none hm))
  case start =>
    intro begun t done
    have ht : (s.popped rest).beginSweep first last mode = t := by
      rw [beginSweep_eq, Census.detach_eq]
      rfl
    have taken := (exec_censusStart h).trans (congrArg _ (censusStartRequest_sweep (s := s.popped rest) hf hl hm))
    rw [ht] at taken
    refine ⟨fun hidle => ?_, fun hbusy honce => ?_, fun hbusy hother => ?_⟩
    · exact taken.trans (congrArg _ (if_pos hidle))
    · exact taken.trans (congrArg _ ((if_neg hbusy).trans (if_pos honce)))
    · exact taken.trans (congrArg _ ((if_neg hbusy).trans (if_neg hother)))
  case stop =>
    refine ⟨fun hidle => ?_, fun hbusy => ?_⟩
    · rw [exec_censusStop h, censusStopRequest, State.popped_census, if_pos hidle, hidle]
      rfl
    · rw [exec_censusStop h, censusStopRequest, State.popped_census, if_neg hbusy, State.stopCensus, Census.detach_eq]
      rfl
  case step =>
    intro done
    refine ⟨fun hbad => ?_, fun hm hsource => ?_⟩
    · rw [exec_censusStep h, censusStepRequest_elsewhere (s := s.popped rest) hbad]
      rfl
    · have taken {t : State} {result : Byte} (hs : s.census.state ≠ .idle) (ht : (s.popped rest).takeStep = t)
          (hr : (s.popped rest).stepResult = result) : exec .censusStep s = .next (done t result) := by
        rw [exec_censusStep h, censusStepRequest_stepped (s := s.popped rest) hm hsource hs, ht, hr]
        rfl
      refine ⟨fun hs => ?_, fun hs hnone => ?_, fun hs hsome => ?_⟩
      · exact taken (by rw [hs]; nofun) (takeStep_waitStep hs) (stepResult_waitStep hs)
      · exact taken (by rw [hs]; nofun) (takeStep_running hs) ((stepResult_running hs).trans (by simp [hnone]))
      · exact taken (by rw [hs]; nofun) (takeStep_kept hs hsome) ((stepResult_running hs).trans (by simp [hsome]))
  case status =>
    rw [exec_censusStatus h, censusStatusRequest, Census.probeFlags_eq]
    rfl

end Sys2Proof.Machine

/-! ## The outcome of a probe (6.3, 6.4) -/
namespace Sys2Proof.Machine
set_option Elab.async false

/-! ### The address probed (R10, R138) -/

/-- The census quarantine of an entry is the longer of the two (R10). -/
theorem lengthenEntry_eq (q : Nat) (e : AddrEntry) : lengthenEntry q e =
    match e with
    | .free => quarantineEntry q
    | .quarantined m => .quarantined (max m q)
    | .held n => .held n := by
  cases e with
  | free => rfl
  | held n => rfl
  | quarantined m =>
    by_cases h : q ≤ m
    · rw [lengthenEntry, if_pos h]
      exact congrArg _ (max_eq_left h).symm
    · rw [lengthenEntry, if_neg h]
      exact congrArg _ (max_eq_right (Nat.le_of_not_le h)).symm

/-- A release of an address is queued unless one of that address waits, or the queue is full (R138). -/
theorem offerRelease_eq (s : State) (a : Address) (r : ReleaseReason) : s.offerRelease a r =
    { s.putEntry a (lengthenEntry s.params.quarantineMin (s.entry a)) with
      releases := if s.releases.any (fun e => e.address == a) ∨ 16 ≤ s.releases.length then s.releases
        else s.releases ++ [⟨a, r, false⟩] } := by
  by_cases hany : s.releases.any (fun e => e.address == a) = true
  · rw [if_pos (.inl hany)]
    exact if_pos hany
  · by_cases hfull : 16 ≤ s.releases.length
    · rw [if_pos (.inr hfull)]
      exact (if_neg hany).trans (if_pos hfull)
    · rw [if_neg (not_or.mpr ⟨hany, hfull⟩)]
      exact (if_neg hany).trans (if_neg hfull)

/-! ### Answers against the table (Table 6-1) -/

section Answer
variable {s : State} {a : Address} {x : Identity} {cls : Byte} {units : Nat}

theorem isHeld_of_held {m : Slot} (h : s.entry a = .held m) : s.isHeld a = true := by
  rw [State.isHeld, h]

theorem isHeld_of_not_held (h : ∀ m, s.entry a ≠ .held m) : ¬s.isHeld a = true := by
  rw [State.isHeld]
  split
  · next m he => exact absurd he (h m)
  · nofun

/-- An answer with an identity that no lease holds. -/
theorem takeAnswer_unknown (hx : s.findIdentity x = none) :
    s.takeAnswer a x cls units = if s.isHeld a then s.conflictAt a else s.adopt x a cls units := by
  simp only [State.takeAnswer, hx]

/-- An answer with the identity of a lease. -/
theorem takeAnswer_known {n : Slot} {l : Lease} (hx : s.findIdentity x = some n) (hl : s.lease n = some l) :
    s.takeAnswer a x cls units =
      if l.address = a then
        match l.status with
        | .lost q => s.rebind n l q a cls units
        | _ => s
      else
        match l.status with
        | .reserved => s.offerRelease a .redirect
        | .lost q => if s.isHeld a then s.conflictAt a else s.rebind n l q a cls units
        | _ => s.conflictAt a := by
  cases hst : l.status <;> simp only [State.takeAnswer, hx, hl, hst]

/-- A GOOD answer is taken by its identity, class and term, and one without a term is not taken (R136). -/
theorem judgeProbe_answer (b0 b1 b2 b3 b4 b5 cls units : Byte) :
    s.judgeProbe a .good [b0, b1, b2, b3, b4, b5, cls, units] =
      if units = 0 then s else s.takeAnswer a (b5 ++ b4 ++ b3 ++ b2 ++ b1 ++ b0) cls units.toNat := by
  by_cases h : units = 0
  · subst h; rfl
  · rw [if_neg h]
    exact if_neg fun h0 => h (BitVec.eq_of_toNat_eq h0)

end Answer

/-! ### The census after the outcome (R133, R135) -/

/-- The current probe is cleared, and the walk goes on unless the mode waits for a step. -/
theorem probeTaken_eq (u : State) : u.probeTaken =
    let v : State := { u with census := { u.census with
      pending := none
      cursor := if u.census.cursor = u.census.last then u.census.first else u.census.cursor + 1
      beyond := decide (u.census.cursor = u.census.last) } }
    if v.census.mode = .stepped ∧ v.census.stepPending = false then
      { v with census := { v.census with state := .waitStep } }
    else if v.census.mode = .stepped then State.censusWalk { v with census := { v.census with stepPending := false } }
    else v.censusWalk := by
  simp only [State.probeTaken]
  cases u.census.mode with
  | stepped => cases u.census.stepPending <;> rfl
  | onceR => rfl
  | once => rfl
  | continuous => rfl

/-- Settles O51: the judgement of the outcome by its kind, the answer by Table 6-1, and then the census. -/
theorem probeOutcomeFollowsTheAnswerTable : Obligations.ProbeOutcomeFollowsTheAnswerTable := by
  intro s t a o hk ha hu after withheld release joined
  have done {u : State} (h : s.judgeProbe a o (t.reply.getD []) = u) : s.txnDone t o = after u := by
    simp only [State.txnDone, hk, State.probeDone, ha, h, after, probeTaken_eq]
    rcases u.census.pending with _ | ⟨b, _ | _⟩ <;> rfl
  have hrelease (r : ReleaseReason) (c : Cause) : (s.offerRelease a r).raise c = release r c.mask := by
    rw [offerRelease_eq, lengthenEntry_eq]
    rfl
  have hredirect : s.offerRelease a .redirect = release .redirect 0 := by
    have hflags : s.causes.flags ||| 0 = s.causes.flags := BitVec.or_zero
    simp only [offerRelease_eq, lengthenEntry_eq, release, hflags]
    rfl
  refine ⟨?silent, fun r h => ?clash, ?good⟩
  case silent =>
    rintro (rfl | rfl)
    · exact done rfl
    · exact done rfl
  case clash =>
    subst h
    exact done (hrelease .clash .clash)
  case good =>
    rintro rfl b0 b1 b2 b3 b4 b5 cls units hreply x rebound
    have answered {u : State} (h0 : units ≠ 0) (h : s.takeAnswer a x cls units.toNat = u) : s.txnDone t .good = after u :=
      done (by rw [hreply, Option.getD_some, judgeProbe_answer, if_neg h0, h])
    refine ⟨?noTerm, fun h0 n l hl hx => ?known, fun h0 hx => ?unknown⟩
    case noTerm => exact fun h0 => done (by rw [hreply, Option.getD_some, judgeProbe_answer, if_pos h0])
    case known =>
      have known := takeAnswer_known (a := a) (cls := cls) (units := units.toNat) (findIdentity_some hu hl hx) hl
      have home (h : l.address = a) := known.trans (if_pos h)
      have away (h : l.address ≠ a) := known.trans (if_neg h)
      refine ⟨fun hhere hlost => ?_, fun hhere q hlost => ?_, fun haway hres => ?_, fun haway hres hlost => ?_,
        fun haway q m hlost hheld => ?_, fun haway q hlost hfree => ?_⟩
      · refine answered h0 ((home hhere).trans ?_)
        split
        · next q hq => exact absurd hq (hlost q)
        · rfl
      · refine answered h0 ((home hhere).trans ?_)
        simp only [hlost, State.rebind, if_pos hhere]
        rfl
      · refine answered h0 ((away haway).trans ?_)
        simp only [hres, hredirect]
      · refine answered h0 ((away haway).trans ?_)
        split
        · next hq => exact absurd hq hres
        · next q hq => exact absurd hq (hlost q)
        · exact hrelease .conflict .conflict
      · refine answered h0 ((away haway).trans ?_)
        simp only [hlost, if_pos (isHeld_of_held hheld)]
        exact hrelease .conflict .conflict
      · refine answered h0 ((away haway).trans ?_)
        simp only [hlost, if_neg (isHeld_of_not_held hfree), State.rebind, if_neg haway]
        rfl
    case unknown =>
      have unknown := takeAnswer_unknown (a := a) (cls := cls) (units := units.toNat) (findIdentity_none hx)
      refine ⟨fun m hheld => ?_, fun hfree n hn hlow => ?_, fun hfree hfull => ?_⟩
      · exact answered h0 (unknown.trans ((if_pos (isHeld_of_held hheld)).trans (hrelease .conflict .conflict)))
      · refine answered h0 (unknown.trans ((if_neg (isHeld_of_not_held hfree)).trans ?_))
        simp only [State.adopt, freeSlot_some hn hlow]
        rfl
      · refine answered h0 (unknown.trans ((if_neg (isHeld_of_not_held hfree)).trans ?_))
        simp only [State.adopt, freeSlot_none hfull, lengthenEntry_eq]
        rfl

end Sys2Proof.Machine

/-! ## The Relay Queue's requests (7.3, 7.7) -/
namespace Sys2Proof.Machine
set_option Elab.async false

/-! ### The arguments of a RELAY (R156) -/

/-- A lease is bound in BOUND and in SUSPECT. -/
theorem isBound_iff {l : Lease} :
    isBound (some l) = true ↔ ∃ term miss, l.status = .bound term miss ∨ l.status = .suspect term miss := by
  cases hst : l.status <;> simp [isBound, hst]

/-- A byte of 0..63 names the lease of that slot as a relay's target. -/
theorem relayTarget_slot {b : Byte} {n : Slot} (h : b.toNat = n.val) : RelayTarget.ofCode b = some (.slot n) := by
  have hn : n.val < 64 := n.isLt
  have hb : b ≠ 0xFE := by
    rintro rfl
    have : (254 : Nat) = n.val := h
    omega
  rw [RelayTarget.ofCode, if_neg hb, slotOf_eq_some.mpr h]
  rfl

theorem relayTarget_eq_none {b : Byte} : RelayTarget.ofCode b = none ↔ ¬(b.toNat < 64 ∨ b = 0xFE) := by
  by_cases hb : b = 0xFE
  · simp [RelayTarget.ofCode, hb]
  · rw [RelayTarget.ofCode, if_neg hb, Option.map_eq_none_iff, slotOf_eq_none, or_iff_left hb, Nat.not_lt]

/-- The wait-reply byte is 0 or 1. -/
theorem bitOf_eq (w : Byte) : bitOf w = if w.toNat ≤ 1 then some (decide (w = 1)) else none := by
  by_cases h0 : w = 0
  · subst h0; rfl
  by_cases h1 : w = 1
  · subst h1; rfl
  have hw : ¬w.toNat ≤ 1 := by bv_omega
  rw [bitOf, if_neg h0, if_neg h1, if_neg hw]

/-- The retries byte is 0..3, or FFh. -/
theorem retriesOf_eq (r : Byte) : retriesOf r =
    if r.toNat ≤ 3 ∨ r = 0xFF then some (if r = 0xFF then none else some r.toNat) else none := by
  by_cases hr : r = 0xFF
  · subst hr; rfl
  · simp only [retriesOf, hr, or_false, if_false]

/-- The Relay Queue entry of a RELAY's arguments (Table 7-5). -/
def relayEntry (tag w r : Byte) (payload : List Byte) (target : RelayTarget) : Relay :=
  { tag := tag, target := target, waitReply := decide (w = 1), payload := payload, inFlight := false
    retries := if r = 0xFF then none else some r.toNat }

/-- What the last check of R156 does with an entry: it goes to the tail of the queue, if there is room. -/
def State.enterRelay (e : Relay) (s : State) : State :=
  if 8 ≤ s.relays.length then s.answer .relay e.tag .full [] else (s.setRelays (s.relays ++ [e])).defer .relay

theorem enterRelay_full {s : State} (h : 8 ≤ s.relays.length) (e : Relay) :
    s.enterRelay e = s.answer .relay e.tag .full [] := if_pos h

theorem enterRelay_room {s : State} (h : s.relays.length < 8) (e : Relay) :
    s.enterRelay e = (s.setRelays (s.relays ++ [e])).defer .relay := if_neg (Nat.not_le.mpr h)

section Relay
variable {s : State} {tag b w r : Byte} {payload : List Byte}

/-- A RELAY with an argument out of range is answered BAD_ARG. -/
theorem relayRequest_invalid
    (h : ¬(payload.length ≤ 8 ∧ (b.toNat < 64 ∨ b = 0xFE) ∧ w.toNat ≤ 1 ∧ (r.toNat ≤ 3 ∨ r = 0xFF))) :
    relayRequest tag (b :: w :: r :: payload) s = s.answer .relay tag .badArg [] := by
  by_cases hlen : payload.length ≤ 8
  · rw [relayRequest, if_neg (Nat.not_lt.mpr hlen)]
    by_cases hb : b.toNat < 64 ∨ b = 0xFE
    · by_cases hw : w.toNat ≤ 1
      · have hr : ¬(r.toNat ≤ 3 ∨ r = 0xFF) := fun hr => h ⟨hlen, hb, hw, hr⟩
        rw [retriesOf_eq, if_neg hr]
        cases RelayTarget.ofCode b <;> cases bitOf w <;> rfl
      · rw [bitOf_eq, if_neg hw]
        cases RelayTarget.ofCode b <;> rfl
    · rw [relayTarget_eq_none.mpr hb]
  · exact if_pos (Nat.not_le.mp hlen)

/-- A RELAY to a lease: the lease must be bound. -/
theorem relayRequest_slot {n : Slot} (hlen : payload.length ≤ 8) (hn : b.toNat = n.val) (hw : w.toNat ≤ 1)
    (hr : r.toNat ≤ 3 ∨ r = 0xFF) : relayRequest tag (b :: w :: r :: payload) s =
      if isBound (s.lease n) then s.enterRelay (relayEntry tag w r payload (.slot n))
      else s.answer .relay tag .notBound [b, leaseCode (s.lease n)] := by
  rw [relayRequest, if_neg (Nat.not_lt.mpr hlen), relayTarget_slot hn, bitOf_eq, if_pos hw, retriesOf_eq, if_pos hr,
    ← byteOf_toNat hn]
  rfl

theorem relayRequest_broadcast (hlen : payload.length ≤ 8) (hw : w.toNat ≤ 1) (hr : r.toNat ≤ 3 ∨ r = 0xFF) :
    relayRequest tag (0xFE :: w :: r :: payload) s = s.enterRelay (relayEntry tag w r payload .broadcast) := by
  rw [relayRequest, if_neg (Nat.not_lt.mpr hlen), bitOf_eq, if_pos hw, retriesOf_eq, if_pos hr]
  rfl

end Relay

/-! ### The withdrawal of a relay (R161) -/

/-- The first entry with the tag that is not in flight is taken out, and it alone. -/
theorem cancelFirst_append {c : Byte} {before after : List Relay} {e : Relay} (htag : e.tag = c)
    (hf : e.inFlight = false) (hb : ∀ x ∈ before, x.tag = c → x.inFlight = true) :
    cancelFirst c (before ++ e :: after) = before ++ after := by
  induction before with
  | nil => exact if_pos ⟨htag, hf⟩
  | cons x xs ih =>
    have hx : ¬(x.tag = c ∧ x.inFlight = false) := fun ⟨ht, hfree⟩ => by simp [hb x (by simp) ht] at hfree
    have rest := ih fun y hy => hb y (List.mem_cons_of_mem x hy)
    rw [List.cons_append, cancelFirst, if_neg hx, rest, List.cons_append]

section Cancel
variable {s : State} {tag c : Byte}

/-- A RELAY_CANCEL that finds an entry answers that relay CANCELLED and then itself OK. -/
theorem relayCancelRequest_found {e : Relay} (hmem : e ∈ s.relays) (htag : e.tag = c) (hf : e.inFlight = false) :
    relayCancelRequest tag [c] s =
      ((s.setRelays (cancelFirst c s.relays)).settle .relay c .cancelled []).answer .relayCancel tag .ok
        [byteOf (cancelFirst c s.relays).length] :=
  if_pos (List.any_eq_true.mpr ⟨e, hmem, by simp [htag, hf]⟩)

/-- A RELAY_CANCEL that finds none tells the entry in flight from no entry. -/
theorem relayCancelRequest_none (h : ∀ x ∈ s.relays, x.tag = c → x.inFlight = true) :
    relayCancelRequest tag [c] s =
      if ∃ x ∈ s.relays, x.tag = c then s.answer .relayCancel tag .tooLate []
      else s.answer .relayCancel tag .notFound [] := by
  have waiting : s.relays.any (fun e => e.tag == c && !e.inFlight) = false := by
    simpa [List.any_eq_false] using h
  have flying : s.relays.any (fun e => e.tag == c && e.inFlight) = true ↔ ∃ x ∈ s.relays, x.tag = c := by
    simp only [List.any_eq_true, Bool.and_eq_true, beq_iff_eq]
    exact exists_congr fun x => and_congr_right fun hx => and_iff_left_of_imp (h x hx)
  simp only [relayCancelRequest, waiting, Bool.false_eq_true, if_false, flying]

end Cancel

/-- Settles O34: RELAY by its target and the room in the queue, RELAY_CANCEL by the entries that carry the tag. -/
theorem relayQueueTakesAndWithdrawsRelays : Obligations.RelayQueueTakesAndWithdrawsRelays := by
  refine ⟨fun l => ⟨rfl, rfl, rfl, isBound_iff⟩, fun s k tag b w r payload rest h => ?relay,
    fun s k tag c rest h => ?cancel⟩
  case relay =>
    intro appended valid
    have taken := exec_relay h
    refine ⟨fun hbad => ?_, fun ⟨hlen, _, hw, hr⟩ n hn => ?_, fun ⟨hlen, _, hw, hr⟩ hb => ?_⟩
    · rw [taken, relayRequest_invalid hbad]
      rfl
    · rw [taken, relayRequest_slot hlen hn hw hr]
      refine ⟨fun hfree => ?_, fun hbound hfull => ?_, fun hbound hroom => ?_⟩
      · rw [State.popped_lease, hfree]
        rfl
      · rw [State.popped_lease, if_pos hbound, enterRelay_full (s := s.popped rest) hfull]
        rfl
      · rw [State.popped_lease, if_pos hbound, enterRelay_room (s := s.popped rest) hroom]
        rfl
    · subst hb
      rw [taken, relayRequest_broadcast hlen hw hr]
      refine ⟨fun hfull => ?_, fun hroom => ?_⟩
      · rw [enterRelay_full (s := s.popped rest) hfull]
        rfl
      · rw [enterRelay_room (s := s.popped rest) hroom]
        rfl
  case cancel =>
    have taken := exec_relayCancel h
    refine ⟨fun before e after hq htag hf hb => ?_, fun hnone => ⟨fun hsome => ?_, fun hother => ?_⟩⟩
    · have hmem : e ∈ (s.popped rest).relays := by simp [hq]
      have hflags : s.causes.flags ||| 0x0002 ||| 0x0002 = s.causes.flags ||| 0x0002 := by
        rw [BitVec.or_assoc, BitVec.or_self]
      rw [taken, relayCancelRequest_found hmem htag hf, State.popped_relays, hq, cancelFirst_append htag hf hb,
        ← hflags]
      rfl
    · rw [taken, relayCancelRequest_none (s := s.popped rest) hnone, State.popped_relays, if_pos hsome]
      rfl
    · have hno : ¬∃ x ∈ s.relays, x.tag = c := fun ⟨x, hx, ht⟩ => hother x hx ht
      rw [taken, relayCancelRequest_none (s := s.popped rest) hnone, State.popped_relays, if_neg hno]
      rfl

end Sys2Proof.Machine

/-! ## The graceful RETIRE (1.6, 7.1) -/
namespace Sys2Proof.Machine
set_option Elab.async false

/-! ### The Release Queue entry of an address (Table 7-2) -/

section Entry
variable {a : Address} {before after : List Release} {e : Release}

/-- The one entry of an address is the first that names it. -/
theorem find_release (he : e.address = a) (hu : ∀ r ∈ before ++ after, r.address ≠ a) :
    (before ++ e :: after).find? (fun r => r.address == a) = some e := by
  rw [List.find?_append, List.find?_eq_none.mpr fun r hr => by simpa using hu r (List.mem_append_left after hr),
    Option.none_or, List.find?_cons_of_pos (by simpa using he)]

/-- A new reason for an address goes into its one entry, and every other entry stands. -/
theorem map_release (he : e.address = a) (hu : ∀ r ∈ before ++ after, r.address ≠ a) (reason : ReleaseReason) :
    (before ++ e :: after).map (fun r => if r.address = a then { r with reason := reason } else r) =
      before ++ { e with reason := reason } :: after := by
  have others (rs : List Release) (h : ∀ r ∈ rs, r.address ≠ a) :
      rs.map (fun r => if r.address = a then { r with reason := reason } else r) = rs :=
    (List.map_congr_left fun r hr => if_neg (h r hr)).trans (List.map_id' rs)
  rw [List.map_append, List.map_cons, others before fun r hr => hu r (List.mem_append_left after hr), if_pos he,
    others after fun r hr => hu r (List.mem_append_right before hr)]

end Entry

section Retire
variable {s : State} {k tag b : Byte} {rest : List ReqEntry} {n : Slot} {l : Lease}

/-- The take of a graceful RETIRE of a lease, by its state. -/
theorem exec_retireGraceful_lease (h : s.Takes [k, 0x15, tag, b, 0] rest) (hn : b.toNat = n.val)
    (hl : s.lease n = some l) : exec .retireGraceful s = .next (
      match l.status with
      | .releasing _ => (s.popped rest).answer .retire tag .busy [l.status.code, addressByte l.address]
      | .bound term _ => (s.popped rest).retireByRelease n l term tag
      | .suspect term _ => (s.popped rest).retireByRelease n l term tag
      | _ => (s.popped rest).answer .retire tag .badState [l.status.code, addressByte l.address]) := by
  rw [exec_retireGraceful h]
  cases hst : l.status with
  | _ => simp only [retireGracefulRequest, slotOf_eq_some.mpr hn, State.popped_lease, hl, hst]

/-- A graceful RETIRE of a lease whose address has an entry (rows 2 and 3 of Table 7-2). -/
theorem retireByRelease_entry {term : Nat} {before after : List Release} {e : Release}
    (hq : s.releases = before ++ e :: after) (he : e.address = l.address)
    (hu : ∀ r ∈ before ++ after, r.address ≠ l.address) : s.retireByRelease n l term tag =
      if e.inFlight then s.answer .retire tag .busy [l.status.code, addressByte l.address]
      else ((s.setReleases (before ++ { e with reason := .retire n tag } :: after)).startReleasing n l term).defer
        .retire := by
  simp only [State.retireByRelease, hq, find_release he hu, map_release he hu]

/-- A graceful RETIRE of a lease whose address has none (rows 4 and 5 of Table 7-2). -/
theorem retireByRelease_new {term : Nat} (hu : ∀ e ∈ s.releases, e.address ≠ l.address) :
    s.retireByRelease n l term tag =
      if 16 ≤ s.releases.length then s.answer .retire tag .full [l.status.code, addressByte l.address]
      else ((s.setReleases (s.releases ++ [⟨l.address, .retire n tag, false⟩])).startReleasing n l term).defer
        .retire := by
  have absent : s.releases.find? (fun e => e.address == l.address) = none := by
    simpa [List.find?_eq_none] using hu
  simp only [State.retireByRelease, absent]

end Retire

/-- Settles O25: the checks of R21, then the rows of Table 7-2 for a bound lease. -/
theorem gracefulRetireStartsTheRelease : Obligations.GracefulRetireStartsTheRelease := by
  refine fun s k tag b rest h => ⟨fun hb => ?_, fun n hn => ⟨fun hl => ?_, fun l hl => ?_⟩⟩
  · rw [exec_retireGraceful h]
    simp only [retireGracefulRequest, slotOf_eq_none.mpr hb]
    rfl
  · rw [exec_retireGraceful h]
    simp only [retireGracefulRequest, slotOf_eq_some.mpr hn, State.popped_lease, hl]
    rfl
  · intro refusal entry started deferred
    have taken := exec_retireGraceful_lease h hn hl
    refine ⟨fun hr => ?_, fun hb hr => ?_, fun term miss hst => ?_⟩
    · cases hst : l.status with
      | releasing term => simp only [taken, refusal, hst]; rfl
      | _ => simp [isReleasing, hst] at hr
    · cases hst : l.status with
      | releasing term => simp [isReleasing, hst] at hr
      | bound term miss => simp [isBound, hst] at hb
      | suspect term miss => simp [isBound, hst] at hb
      | _ => simp only [taken, refusal, hst]; rfl
    · have byRelease : exec .retireGraceful s = .next ((s.popped rest).retireByRelease n l term tag) := by
        rcases hst with hst | hst <;> rw [taken, hst]
      refine ⟨fun before e after hq he hu => ?_, fun hu => ?_⟩
      · have byEntry := retireByRelease_entry (s := s.popped rest) (n := n) (tag := tag) (term := term) hq he hu
        refine ⟨fun hf => ?_, fun hf => ?_⟩
        · rw [byRelease, byEntry.trans (if_pos hf)]
          rfl
        · have renewed : { e with reason := .retire n tag } = entry := by rw [hf, he]
          rw [byRelease, byEntry.trans (if_neg (by simp [hf])), renewed]
          rfl
      · have byNew := retireByRelease_new (s := s.popped rest) (n := n) (tag := tag) (term := term) hu
        refine ⟨fun hfull => ?_, fun hroom => ?_⟩
        · rw [byRelease, byNew.trans (if_pos hfull)]
          rfl
        · rw [byRelease, byNew.trans (if_neg (Nat.not_le.mpr hroom))]
          rfl

end Sys2Proof.Machine

/-! ## The outcomes of releases and relays (7.2, 7.4) -/
namespace Sys2Proof.Machine
set_option Elab.async false

/-! ### The outcome of a RELEASE (R152, R153) -/

section Release
variable {s : State} {t : Txn} {n : Slot} {l : Lease} {term : Nat}

/-- A release completion finds the lease that it captured, RELEASING still (R7). -/
theorem releasingMatched_captured (hl : s.lease n = some l) (hx : t.identity = some l.identity)
    (ha : t.address = .station l.address) (hst : l.status = .releasing term) : s.releasingMatched t n = true := by
  simp only [State.releasingMatched, hx, matched_iff.mpr ⟨hl, rfl, ha.symm⟩, hst]

/-- A RELEASING lease is freed with its quarantine. -/
theorem endReleasing_releasing (hl : s.lease n = some l) (hst : l.status = .releasing term) (full : Bool) :
    s.endReleasing n full = s.vacate n l (if full then term + s.params.quarantineMin else s.params.quarantineMin) := by
  simp only [State.endReleasing, hl, hst]

/-- The completion of a lease entry whose lease is RELEASING as captured. -/
theorem completeRelease_captured (hl : s.lease n = some l) (hx : t.identity = some l.identity)
    (ha : t.address = .station l.address) (hst : l.status = .releasing term) (o : AttemptOutcome) (tag : Byte) :
    s.completeRelease t o n tag l.address =
      let q := if o = .good then s.params.quarantineMin else term + s.params.quarantineMin
      (s.vacate n l q).settle .retire tag (if o = .lineFault then .lineFault else .ok)
        ([slotByte n, addressByte l.address, if o = .good then 1 else 0, byteOf t.attempt] ++
          if q = 0 then [0, 0, 0] else 1 :: natBytes q) := by
  have data (q : Nat) := entryData_quarantine (s := s.vacate n l q) (a := l.address) (q := q)
    (by simp [State.vacate_entry])
  simp only [State.completeRelease, releasingMatched_captured hl hx ha hst, if_true, endReleasing_releasing hl hst,
    State.releaseData]
  by_cases ho : o = .good <;> simp [ho, data, markByte]

/-- The response of a graceful RETIRE is eleven bytes (Table 9-6). -/
theorem releaseFrame_eq (o : AttemptOutcome) (tag a b c d : Byte) (q : Nat) :
    responseFrame Request.retire.code tag (if o = .lineFault then .lineFault else .ok)
      ([a, b, c, d] ++ if q = 0 then [0, 0, 0] else 1 :: natBytes q) =
      [11, 0x15, tag, if o = .lineFault then 0x0B else 0x00, a, b, c, d] ++
        (if q = 0 then [0, 0, 0] else 1 :: natBytes q) := by
  by_cases ho : o = .lineFault
  · rw [if_pos ho, if_pos ho]
    split <;> rfl
  · rw [if_neg ho, if_neg ho]
    split <;> rfl

/-- The outcome of an entry that no RETIRE made ends the entry alone (R153). -/
theorem releaseDone_address {e : Release} {es : List Release} (hq : s.releases = e :: es)
    (hr : ∀ n tag, e.reason ≠ .retire n tag) (o : AttemptOutcome) : s.releaseDone t o = s.setReleases es := by
  simp only [State.releaseDone, hq]
  split
  · next n tag he => exact absurd he (hr n tag)
  all_goals rfl

end Release

/-! ### The outcome of a relay (R159) -/

/-- A relay's outcome answers the head of the Relay Queue by Table 7-7. -/
theorem relayDone_head {s : State} {e : Relay} {es : List Relay} (hq : s.relays = e :: es) (t : Txn)
    (o : AttemptOutcome) :
    s.relayDone t o = (s.setRelays es).settle .relay e.tag (relayResult o) (relayData t o) := by
  simp only [State.relayDone, hq]

/-- A relay's response is ten bytes and the reply. -/
theorem relayData_length (t : Txn) (o : AttemptOutcome) :
    (relayData t o).length + 4 = 10 + (if o = .good then t.reply.getD [] else []).length := by
  simp [relayData, halfBytes]
  omega

/-- Settles O50: the head of the queue by its reason, and the relay's response by the outcome. -/
theorem releaseAndRelayOutcomesAnswerTheHost : Obligations.ReleaseAndRelayOutcomesAnswerTheHost := by
  refine ⟨rfl, fun s t o => ⟨fun hk e es hq => ⟨fun n tag hr hn l term hl hx ha he hst => ?lease, fun hr => ?address⟩,
    fun hk e es hq => ?relay⟩⟩
  case lease =>
    have done : s.txnDone t o = (s.setReleases es).completeRelease t o n tag l.address := by
      simp only [State.txnDone, hk, State.releaseDone, hq, hr, he]
    rw [done, completeRelease_captured (s := s.setReleases es) hl hx ha hst]
    dsimp only
    rw [settle_eq_replied, releaseFrame_eq]
    rfl
  case address =>
    simp only [State.txnDone, hk]
    exact releaseDone_address hq hr o
  case relay =>
    intro payload v
    simp only [State.txnDone, hk]
    rw [relayDone_head hq, settle_eq_replied, responseFrame, relayData_length]
    cases o <;> rfl

end Sys2Proof.Machine

/-! ## CONFIGURE and READ_CONFIG (8.4, 8.5) -/
namespace Sys2Proof.Machine
set_option Elab.async false

/-! ### READ_CONFIG (R179) -/

/-- Words of two bytes each, one after another. -/
theorem flatten_natBytes_length {α : Type} (f : α → Nat) (xs : List α) :
    ((xs.map fun x => natBytes (f x)).flatten).length = 2 * xs.length := by
  simp [List.length_flatten, Function.comp_def, natBytes, halfBytes, Nat.mul_comm]

/-- The parameters from one on, as many as there are left of them at most. -/
theorem params_from_length {f c : Nat} (hf : 1 ≤ f) (h : f + c ≤ 23) : ((Param.all.drop (f - 1)).take c).length = c := by
  rw [List.length_take, List.length_drop, show Param.all.length = 22 from rfl]
  omega

section ReadConfig
variable {s : State} {tag first count : Byte}

/-- READ_CONFIG within the record: the present values in identifier order. -/
theorem readConfigRequest_inside (hf : 1 ≤ first.toNat ∧ first.toNat ≤ 22) (hc : 1 ≤ count.toNat ∧ count.toNat ≤ 16)
    (h : first.toNat + count.toNat ≤ 23) : readConfigRequest tag [first, count] s = s.replied
      ([byteOf (6 + 2 * count.toNat), 0x04, tag, 0x00, first, count] ++
        (((Param.all.drop (first.toNat - 1)).take count.toNat).map fun q => natBytes (s.params.get q)).flatten) := by
  have inside : 1 ≤ first.toNat ∧ first.toNat ≤ 22 ∧ 1 ≤ count.toNat ∧ count.toNat ≤ 16 ∧
      first.toNat + count.toNat - 1 ≤ 22 := by omega
  have size (n : Nat) : [first, count].length + 2 * n + 4 = 6 + 2 * n := by
    simp only [List.length_cons, List.length_nil]
    omega
  rw [readConfigRequest, if_pos inside, answer_eq_replied, responseFrame, List.length_append, flatten_natBytes_length,
    params_from_length hf.1 h, size]
  rfl

/-- READ_CONFIG that begins, ends or counts beyond the record. -/
theorem readConfigRequest_outside (h : ¬(1 ≤ first.toNat ∧ first.toNat ≤ 22 ∧ 1 ≤ count.toNat ∧ count.toNat ≤ 16 ∧
      first.toNat + count.toNat ≤ 23)) :
    readConfigRequest tag [first, count] s = s.replied [4, 0x04, tag, 0x04] := by
  rw [readConfigRequest, if_neg (by omega)]
  rfl

end ReadConfig

/-- Settles O18: READ_CONFIG inside the record and outside it. -/
theorem readConfigReturnsConsecutiveValues : Obligations.ReadConfigReturnsConsecutiveValues := by
  refine fun s k tag first count rest h => ⟨fun ⟨hf, hf', hc, hc', hlast⟩ => ?_, fun hout => ?_⟩
  · rw [exec_readConfig h, readConfigRequest_inside ⟨hf, hf'⟩ ⟨hc, hc'⟩ hlast]
    rfl
  · rw [exec_readConfig h, readConfigRequest_outside hout]

/-! ### What a write of a parameter changes (R175) -/

/-- Changing leases one slot after another writes the slots alone. -/
theorem foldl_reviseSlot_slots (f : Lease → Lease) (ns : List Slot) (s : State) : ∃ slots : Vector (Option Lease) 64,
    ns.foldl (State.reviseSlot f) s = { s with table := { s.table with slots := slots } } := by
  induction ns generalizing s with
  | nil => exact ⟨_, rfl⟩
  | cons n ns ih =>
    obtain ⟨slots, hfold⟩ := ih (s.reviseSlot f n)
    refine ⟨slots, hfold.trans ?_⟩
    unfold State.reviseSlot
    split <;> rfl

theorem mapLeases_slots (f : Lease → Lease) (s : State) : ∃ slots : Vector (Option Lease) 64,
    s.mapLeases f = { s with table := { s.table with slots := slots } } := foldl_reviseSlot_slots f allSlots s

/-- The further effects of a write reach the slots and the prescaler alone. -/
theorem writeEffect_frame (q : Param) (before after : Nat) (s : State) : ∃ slots : Vector (Option Lease) 64,
    s.writeEffect q before after = { s with
      table := { s.table with slots := slots }
      timing := { s.timing with prescaler := if q = .refclkKhz then 0 else s.timing.prescaler } } := by
  cases q with
  | suspectAfter =>
    simp only [State.writeEffect, reduceCtorEq, if_false]
    exact mapLeases_slots _ s
  | lostAfter =>
    simp only [State.writeEffect, reduceCtorEq, if_false]
    exact mapLeases_slots _ s
  | windowSize =>
    simp only [State.writeEffect, reduceCtorEq, if_false]
    split
    · exact ⟨_, rfl⟩
    · exact mapLeases_slots _ s
  | _ => exact ⟨_, rfl⟩

/-- What a write makes of a lease, by the parameters that reach leases. -/
theorem writeRevision_eq (q : Param) (before after : Nat) (l : Lease) : writeRevision q before after l =
    if q = .suspectAfter ∨ q = .lostAfter then l.clearMiss
    else if q = .windowSize ∧ before ≠ after then l.restartWindow
    else l := by
  cases q with
  | windowSize => by_cases h : before = after <;> simp [writeRevision, h]
  | _ => simp [writeRevision]

/-! ### CONFIGURE (R173 to R176) -/

/-- Identifiers outside 01h to 16h name no parameter (R173). -/
theorem Param.ofId_outside {id : Nat} (h : id < 1 ∨ 22 < id) : Param.ofId id = none := by
  unfold Param.ofId
  split
  · rfl
  · rw [List.getElem?_eq_none_iff, show Param.all.length = 22 from rfl]
    omega

/-- The identifiers run from 01h in the order of Table 8-4. -/
theorem Param.ofId_succ (i : Nat) : Param.ofId (i + 1) = Param.all[i]? := rfl

section Configure
variable {s : State} {tag id lo hi : Byte}

theorem configureRequest_unnamed (h : Param.ofId id.toNat = none) :
    configureRequest tag [id, lo, hi] s = s.replied [7, 0x03, tag, 0x04, id, 0, 0] := by
  simp only [configureRequest, h]
  rfl

variable {q : Param} (hq : Param.ofId id.toNat = some q)
include hq

/-- A value out of its range is refused before the condition is looked at (R173). -/
theorem configureRequest_outOfRange (hv : s.params.admits (hi ++ lo).toNat q = false) :
    configureRequest tag [id, lo, hi] s = s.replied ([7, 0x03, tag, 0x04, id] ++ natBytes (s.params.get q)) := by
  simp only [configureRequest, hq, halfOf, hv, if_true]
  rfl

/-- A value in its range is refused while the condition does not hold (R174). -/
theorem configureRequest_barred (hv : s.params.admits (hi ++ lo).toNat q = true) (hw : s.canWrite q = false) :
    configureRequest tag [id, lo, hi] s = s.replied ([7, 0x03, tag, 0x01, id] ++ natBytes (s.params.get q)) := by
  simp only [configureRequest, hq, halfOf, hv, hw, if_true, Bool.true_eq_false, if_false]
  rfl

/-- A write that is taken (R175). -/
theorem configureRequest_taken (hv : s.params.admits (hi ++ lo).toNat q = true) (hw : s.canWrite q = true) :
    configureRequest tag [id, lo, hi] s =
      ((s.setParams (s.params.put (hi ++ lo).toNat q)).writeEffect q (s.params.get q) (hi ++ lo).toNat).replied
        ([9, 0x03, tag, 0x00, id] ++ natBytes (s.params.get q) ++ natBytes (hi ++ lo).toNat) := by
  simp only [configureRequest, hq, halfOf, hv, hw, Bool.true_eq_false, if_false]
  rfl

end Configure

/-- The conditions of Table 8-4's last column (R174). -/
theorem canWrite_iff (s : State) (q : Param) : s.canWrite q = true ↔
    (q = .refclkKhz → s.engine.state = .off) ∧
    (q = .bitDivider ∨ q = .oddStep ∨ q = .replyWait ∨ q = .guardTime →
      s.engine.state = .off ∨ s.engine.state = .held) ∧
    (q = .stepSource → s.census.state = .idle) := by
  cases q <;> simp [State.canWrite]

/-- The parameter written reads as written, and every other as before (R175). -/
theorem Params.put_get (p : Params) (v : Nat) (q r : Param) : (p.put v q).get r = if r = q then v else p.get r := by
  split
  · next h => rw [h, Params.put_get_same]
  · next h => exact Params.put_get_other p v h

/-- Settles O19: CONFIGURE refused for its identifier, its range or its condition, and taken; then the tables. -/
theorem configureWritesAParameterInItsRange : Obligations.ConfigureWritesAParameterInItsRange := by
  refine ⟨fun s k tag id lo hi rest h => ⟨fun hid => ?unnamed, fun i q hget hid => ?named⟩, fun _ _ => rfl, Params.put_get,
    canWrite_iff⟩
  case unnamed => rw [exec_configure h, configureRequest_unnamed (Param.ofId_outside hid)]
  case named =>
    have hq : Param.ofId id.toNat = some q := by rw [hid, Param.ofId_succ, hget]
    rw [exec_configure h]
    refine ⟨fun hv => ?range, fun hv hw => ?condition, fun hv hw => ?taken⟩
    case range => rw [configureRequest_outOfRange (s := s.popped rest) hq hv]; rfl
    case condition => rw [configureRequest_barred (s := s.popped rest) hq hv hw]; rfl
    case taken =>
      obtain ⟨slots, hslots⟩ := writeEffect_frame q (s.params.get q) (hi ++ lo).toNat
        ((s.popped rest).setParams (s.params.put (hi ++ lo).toNat q))
      refine ⟨slots, fun n => ?lease, (congrArg _ (configureRequest_taken (s := s.popped rest) hq hv hw)).trans ?after⟩
      case lease =>
        have written := writeEffect_lease q (s.params.get q) (hi ++ lo).toNat
          ((s.popped rest).setParams (s.params.put (hi ++ lo).toNat q)) n
        rw [hslots] at written
        refine written.trans (congrArg (fun f => (s.lease n).map f) (funext fun l => ?_))
        rw [writeRevision_eq]
        rfl
      case after =>
        rw [State.popped_params, hslots]
        rfl

end Sys2Proof.Machine

/-! ## Ticks and the interval timers (8.1, 8.3) -/
namespace Sys2Proof.Machine
set_option Elab.async false

/-! ### The expiries one by one (R169) -/

section Expiries
variable {s : State}

theorem secondsEvent_notDue (h : s.timing.seconds < 1000) : s.secondsEvent = s :=
  if_neg (by simpa [State.strobeDue] using h)

theorem paceEvent_notDue (h : 0 < s.timing.pace) : s.paceEvent = s := if_neg (Nat.ne_of_gt h)

theorem solicitEvent_notDue (h : 0 < s.timing.solicit) : s.solicitEvent = s := if_neg (Nat.ne_of_gt h)

theorem censusStepEvent_notDue (h : 0 < s.timing.censusStep) : s.censusStepEvent = s := if_neg (Nat.ne_of_gt h)

/-- In PACED and WAIT the pace timer begins a round (R109). -/
theorem paceEvent_wait (h : s.timing.pace = 0) (hm : s.poll.mode = .paced) (hs : s.poll.state = .wait) :
    s.paceEvent = State.beginRound { s with timing := { s.timing with pace := s.params.pollPeriod } } := by
  simp only [State.paceEvent, h, hm, hs, if_true]

/-- In PACED a round that still runs is overrun (R109). -/
theorem paceEvent_round (h : s.timing.pace = 0) (hm : s.poll.mode = .paced) (hs : s.poll.state = .round) :
    s.paceEvent = State.raise .paceOverrun { s with timing := { s.timing with pace := s.params.pollPeriod } } := by
  simp only [State.paceEvent, h, hm, hs, if_true]

/-- In the other poll modes the pace timer is reloaded and nothing else happens. -/
theorem paceEvent_unpaced (h : s.timing.pace = 0) (hm : s.poll.mode ≠ .paced) :
    s.paceEvent = { s with timing := { s.timing with pace := s.params.pollPeriod } } := by
  simp only [State.paceEvent, h, hm, if_true, if_false]

/-- The solicit timer sets solicit due outside CLOSED (R75). -/
theorem solicitEvent_due (h : s.timing.solicit = 0) : s.solicitEvent = { s with
    timing := { s.timing with solicit := s.params.solicitPeriod }
    enrol := { s.enrol with solicitDue := s.enrol.solicitDue || decide (s.enrol.mode ≠ .closed) } } := by
  rw [State.solicitEvent, if_pos h]
  by_cases hm : s.enrol.mode = .closed
  · rw [decide_eq_false (not_not.mpr hm), Bool.or_false]
    exact if_pos hm
  · rw [decide_eq_true hm, Bool.or_true]
    exact if_neg hm

theorem censusStepEvent_due (h : s.timing.censusStep = 0) : s.censusStepEvent =
    State.timerStep { s with timing := { s.timing with censusStep := s.params.censusStepMs } } := if_pos h

/-- The census-step timer at the census: a step of a STEPPED census whose steps it gives, the next pass of a CONTINUOUS one
that waits, and nothing otherwise (R132, R133). -/
theorem timerStep_eq (s : State) : s.timerStep =
    if s.census.mode = .stepped ∧ s.params.stepSource = 0 then s.takeStep
    else if s.census.mode = .continuous ∧ s.census.state = .waitStep then s.censusWalk
    else s := by
  unfold State.timerStep
  cases s.census.mode <;> simp

theorem takeStep_idle (h : s.census.state = .idle) : s.takeStep = s := by
  simp only [State.takeStep, h]

/-- A census that waits goes on, by a step or by its next pass. -/
theorem timerStep_waits (hs : s.census.state = .waitStep)
    (h : (s.census.mode = .stepped ∧ s.params.stepSource = 0) ∨ s.census.mode = .continuous) :
    s.timerStep = s.censusWalk := by
  rw [timerStep_eq]
  rcases h with h | h
  · rw [if_pos h, takeStep_waitStep hs]
  · rw [if_neg (by simp [h]), if_pos ⟨h, hs⟩]

/-- A STEPPED census that runs keeps the step. -/
theorem timerStep_running (hs : s.census.state = .running) (hm : s.census.mode = .stepped) (h : s.params.stepSource = 0) :
    s.timerStep = { s with census := { s.census with stepPending := true } } := by
  rw [timerStep_eq, if_pos ⟨hm, h⟩, takeStep_running hs]

/-- The expiry passes by a census that is idle, takes its steps from the host, has no steps, or runs its pass. -/
theorem timerStep_passes (h : s.census.state = .idle ∨ (s.census.mode = .stepped ∧ s.params.stepSource ≠ 0) ∨
      s.census.mode = .onceR ∨ s.census.mode = .once ∨ (s.census.mode = .continuous ∧ s.census.state = .running)) :
    s.timerStep = s := by
  rw [timerStep_eq]
  rcases h with hs | ⟨hm, hsource⟩ | hm | hm | ⟨hm, hs⟩
  · simp [hs, takeStep_idle hs]
  · simp [hm, hsource]
  · simp [hm]
  · simp [hm]
  · simp [hm, hs]

end Expiries

/-- Settles O37: each timer above 0 and at 0, and at 0 by the state of its owner. -/
theorem expiriesReloadAndReachTheirOwners : Obligations.ExpiriesReloadAndReachTheirOwners := by
  intro s hr
  rw [exec_paceExpiry hr, exec_solicitExpiry hr, exec_censusStepExpiry hr]
  refine ⟨fun h => ?_, fun h => ⟨fun hm hs => ?_, fun hm hs => ?_, fun hm => ?_⟩, fun h => ?_, fun h => ?_, fun h => ?_,
    fun h => ?_⟩
  · rw [paceEvent_notDue h]
  · rw [paceEvent_wait h hm hs]
    rfl
  · rw [paceEvent_round h hm hs]
    rfl
  · rw [paceEvent_unpaced h hm]
  · rw [solicitEvent_notDue h]
  · rw [solicitEvent_due h]
  · rw [censusStepEvent_notDue h]
  · rw [censusStepEvent_due h]
    refine ⟨fun hs hm => ?_, fun hs hm hsource => ?_, fun hpass => ?_⟩
    · exact congrArg Host.Outcome.next (timerStep_waits hs hm)
    · exact congrArg Host.Outcome.next (timerStep_running hs hm hsource)
    · exact congrArg Host.Outcome.next (timerStep_passes hpass)

/-! ### The events of a tick leave the pins and the Engine -/

namespace State.LeavesTrunk

theorem strobeLease (s : State) (n : Slot) : s.LeavesTrunk (s.strobeLease n) := by
  unfold State.strobeLease
  split
  · exact refl s
  · split
    · exact cond same same
    · exact cond same same
    · exact cond same same
    · exact refl s

theorem takeStrobe (s : State) : s.LeavesTrunk s.takeStrobe :=
  ((foldl (f := State.strobeAddress) (fun _ _ => same) allAddresses s).trans (foldl strobeLease allSlots _)).trans
    (pollSettle _)

theorem secondsEvent (s : State) : s.LeavesTrunk s.secondsEvent := cond (afterSame (takeStrobe _)) (refl s)

theorem paceEvent (s : State) : s.LeavesTrunk s.paceEvent := by
  refine cond (cond ?_ same) (refl s)
  split
  · exact afterSame (ofWalk (.beginRound _))
  · exact same
  · exact same

theorem solicitEvent (s : State) : s.LeavesTrunk s.solicitEvent := cond (cond same same) (refl s)

theorem takeStep (s : State) : s.LeavesTrunk s.takeStep := by
  unfold State.takeStep
  split
  · exact censusWalk s
  · exact same
  · exact refl s

theorem timerStep (s : State) : s.LeavesTrunk s.timerStep := by
  rw [timerStep_eq]
  exact cond (takeStep s) (cond (censusWalk s) (refl s))

theorem censusStepEvent (s : State) : s.LeavesTrunk s.censusStepEvent := cond (afterSame (timerStep _)) (refl s)

/-- What leaves the pins leaves the part out of reset. -/
theorem running {s t : State} (h : s.LeavesTrunk t) (hr : s.pins.rstLow = false) : t.pins.rstLow = false := by
  rw [h.1, hr]

end State.LeavesTrunk

/-! ### The tick (R165, R166, R168) -/

/-- With no event of an earlier tick untaken there is nothing to take. -/
theorem takeDue_none {s : State} (hseconds : s.timing.seconds < 1000) (hpace : 0 < s.timing.pace)
    (hsolicit : 0 < s.timing.solicit) (hcensus : 0 < s.timing.censusStep) (hdrop : s.engine.dropDue = false) :
    s.takeDue = s := by
  rw [State.takeDue, secondsEvent_notDue hseconds, paceEvent_notDue hpace, solicitEvent_notDue hsolicit,
    censusStepEvent_notDue hcensus, dropEvent_notDue hdrop]

/-- The five events taken as commands, one after another, are those a tick takes first (log entry 5). -/
theorem takeDue_eq_of_execs {s a b c d e : State} (hr : s.pins.rstLow = false) (ha : exec .secondsStrobe s = .next a)
    (hb : exec .paceExpiry a = .next b) (hc : exec .solicitExpiry b = .next c)
    (hd : exec .censusStepExpiry c = .next d) (he : exec .faultDrop d = .next e) : s.takeDue = e := by
  rw [exec_secondsStrobe hr] at ha
  obtain rfl := Host.Outcome.next.inj ha
  replace hr := (State.LeavesTrunk.secondsEvent _).running hr
  rw [exec_paceExpiry hr] at hb
  obtain rfl := Host.Outcome.next.inj hb
  replace hr := (State.LeavesTrunk.paceEvent _).running hr
  rw [exec_solicitExpiry hr] at hc
  obtain rfl := Host.Outcome.next.inj hc
  replace hr := (State.LeavesTrunk.solicitEvent _).running hr
  rw [exec_censusStepExpiry hr] at hd
  obtain rfl := Host.Outcome.next.inj hd
  replace hr := (State.LeavesTrunk.censusStepEvent _).running hr
  rw [exec_faultDrop hr] at he
  exact Host.Outcome.next.inj he

/-- Settles O35: a tick after which nothing stands untaken, and one that finds events untaken. -/
theorem tickCountsTheTimers : Obligations.TickCountsTheTimers := by
  refine fun s hr => ⟨fun hseconds hpace hsolicit hcensus hdrop => ?_, fun a b c d e ha hb hc hd he => ?_⟩
  · rw [exec_tick hr, State.tickEvent, takeDue_none hseconds hpace hsolicit hcensus hdrop]
    rfl
  · rw [exec_tick hr, State.tickEvent, takeDue_eq_of_execs hr ha hb hc hd he]
    rfl

end Sys2Proof.Machine

/-! ## The steps of a part with no command waiting (8.1, 8.2) -/
namespace Sys2Proof.Machine
set_option Elab.async false

/-! ### A step on an empty queue (log entry 5) -/

section Idle
variable {s : State}

theorem step_idle (h : s.pending = []) : step s = idleStep s := by simp only [step, h]

theorem idleStep_held (h : s.pins.rstLow = true) : idleStep s = .next s := if_pos h

theorem idleStep_event {c : Instr} (hr : s.pins.rstLow = false) (h : s.ownEvent = some c) : idleStep s = exec c s := by
  rw [idleStep, if_neg (by simp [hr]), h]

theorem idleStep_period (hr : s.pins.rstLow = false) (h : s.ownEvent = none) : idleStep s = .next s.refclkPeriod := by
  rw [idleStep, if_neg (by simp [hr]), h]

/-- The trunk's clock one REFCLK period on, in the states that last a counted time (R167). -/
def State.clocked (s : State) : State :=
  { s with engine := { s.engine with clock := if s.engine.state.timed then s.engine.clock + 1 else s.engine.clock } }

/-- One REFCLK period: the trunk's clock, and then the prescaler or its tick (R165, R167). -/
theorem refclkPeriod_eq (s : State) : s.refclkPeriod =
    if s.params.refclkKhz ≤ s.timing.prescaler + 1 then s.clocked.tickEvent
    else { s.clocked with timing := { s.timing with prescaler := s.timing.prescaler + 1 } } := by
  unfold State.refclkPeriod State.clocked
  cases s.engine.state.timed <;> rfl

/-! ### The event that is due -/

theorem tickDue_eq (s : State) : s.tickDue =
    if 1000 ≤ s.timing.seconds then some .secondsStrobe
    else if s.timing.pace = 0 then some .paceExpiry
    else if s.timing.solicit = 0 then some .solicitExpiry
    else if s.timing.censusStep = 0 then some .censusStepExpiry
    else if s.engine.dropDue then some .faultDrop
    else none := by
  simp only [State.tickDue, State.strobeDue, decide_eq_true_eq]

theorem ownEvent_tick {c : Instr} (h : s.tickDue = some c) : s.ownEvent = some c := by
  simp only [State.ownEvent, h]

theorem ownEvent_trunk {c : Instr} (htick : s.tickDue = none) (h : s.trunkDue = some c) : s.ownEvent = some c := by
  simp only [State.ownEvent, htick, h]

theorem ownEvent_take {e : ReqEntry} {rest : List ReqEntry} (htick : s.tickDue = none) (htrunk : s.trunkDue = none)
    (hq : s.host.requests = e :: rest) (hf : s.fits e = true) : s.ownEvent = some e.row := by
  simp only [State.ownEvent, htick, htrunk, State.takeDueRow, hq, hf, if_true]

/-- With no head that can be taken the grant is left (R57). -/
theorem ownEvent_grant (htick : s.tickDue = none) (htrunk : s.trunkDue = none)
    (hq : ∀ e rest, s.host.requests = e :: rest → ¬s.fits e = true) : s.ownEvent = s.grantDue := by
  have none_taken : s.takeDueRow = none := by
    unfold State.takeDueRow
    split
    · next e rest h => exact if_neg (hq e rest h)
    · rfl
  simp only [State.ownEvent, htick, htrunk, none_taken]

/-- A code names the request that has it. -/
theorem ofCode_eq_some {b : Byte} {r : Request} : Request.ofCode b = some r ↔ b = r.code := by
  refine ⟨fun h => ?_, fun h => h ▸ ofCode_code r⟩
  have found := List.find?_some h
  exact (beq_iff_eq.mp found).symm

/-- A head can be taken when its space suffices, or when it is a RESET without arguments (R191). -/
theorem fits_iff {e : ReqEntry} : s.fits e = true ↔ e.maxResponse ≤ s.space ∨ ∃ k tag, e = .frame [k, 0x06, tag] := by
  unfold State.fits
  rw [Bool.or_eq_true, decide_eq_true_eq]
  refine or_congr_right ?_
  cases e with
  | marker b => simp
  | frame bytes =>
    rw [decide_eq_true_eq (p := _ ∧ _), ofCode_eq_some]
    constructor
    · rintro ⟨hlen, hcode⟩
      obtain ⟨k, code, tag, rfl⟩ := List.length_eq_three.mp hlen
      exact ⟨k, tag, by rw [show code = 0x06 from hcode]⟩
    · rintro ⟨k, tag, he⟩
      obtain rfl := ReqEntry.frame.inj he
      exact ⟨rfl, rfl⟩

theorem waitingProbe_isSome : s.waitingProbe.isSome = true ↔ ∃ a, s.census.pending = some ⟨a, false⟩ := by
  constructor
  · intro h
    by_contra hnone
    rw [waitingProbe_none fun a ha => hnone ⟨a, ha⟩] at h
    cases h
  · rintro ⟨a, ha⟩
    rw [waitingProbe_waits ha]
    rfl

theorem waitingPoll_isSome : s.waitingPoll.isSome = true ↔ ∃ n, s.poll.pending = some ⟨n, false⟩ := by
  constructor
  · intro h
    by_contra hnone
    rw [waitingPoll_none fun n hn => hnone ⟨n, hn⟩] at h
    cases h
  · rintro ⟨n, hn⟩
    rw [waitingPoll_waits hn]
    rfl

/-- The sources of Table 3-6, one by one (R57). -/
theorem hasWork_iff : s.hasWork = true ↔ s.enrol.offers ≠ [] ∨ s.releases ≠ [] ∨ s.relays ≠ [] ∨
    (∃ a, s.census.pending = some ⟨a, false⟩) ∨ (∃ n, s.poll.pending = some ⟨n, false⟩) ∨ s.enrol.solicitDue = true := by
  simp only [State.hasWork, Bool.or_eq_true, Bool.not_eq_true', List.isEmpty_eq_false_iff, waitingProbe_isSome,
    waitingPoll_isSome, or_assoc]

/-! ### The trunk event that is due (R32, R39, R40, R44, R45) -/

variable {t : Txn}

theorem trunkDue_send (hs : s.engine.state = .send) (ht : s.engine.txn = some t) :
    s.trunkDue = if t.frame.length * s.params.charTime ≤ s.engine.clock then some .frameSent else none := by
  simp only [State.trunkDue, hs, ht]

theorem trunkDue_window (hs : s.engine.state = .listen) (ht : s.engine.txn = some t) (hk : t.kind ≠ .solicit) :
    s.trunkDue =
      if s.params.windowTime + s.params.judgeTime < s.engine.clock then some .replyWindowTimeout else none := by
  simp only [State.trunkDue, hs, ht, hk, if_false]

theorem trunkDue_listen (hs : s.engine.state = .listen) (ht : s.engine.txn = some t) (hk : t.kind = .solicit) :
    s.trunkDue =
      if s.params.listenTime + s.params.judgeTime ≤ s.engine.clock then some .solicitListenEnd else none := by
  simp only [State.trunkDue, hs, ht, hk, if_true]

theorem trunkDue_receive (hs : s.engine.state = .receive) (ht : s.engine.txn = some t) : s.trunkDue =
    if s.engine.reception.charBegan = none ∧
        s.engine.reception.idleFrom + s.params.charTime + s.params.judgeTime < s.engine.clock
    then some .replyIdleTimeout else none := by
  simp only [State.trunkDue, hs, ht]

theorem trunkDue_guarding (hs : s.engine.state = .guarding) : s.trunkDue =
    if s.engine.guardFrom + s.params.guardTime * s.params.charTime ≤ s.engine.clock then some .guardEnd else none := by
  simp only [State.trunkDue, hs]

theorem trunkDue_untimed (hs : s.engine.state = .off ∨ s.engine.state = .idle ∨ s.engine.state = .held) :
    s.trunkDue = none := by
  rcases hs with hs | hs | hs <;> simp only [State.trunkDue, hs]

end Idle

/-- Settles O2: the step, the order of the events due, and the trunk event of each engine state. -/
theorem emptyQueueStepTakesADueEventOrCountsAPeriod : Obligations.EmptyQueueStepTakesADueEventOrCountsAPeriod := by
  intro s hp
  rw [step_idle hp]
  refine ⟨idleStep_held, fun hr c hc => idleStep_event hr hc, fun hr hnone => ?period, ?order, ?trunk⟩
  case period =>
    rw [idleStep_period hr hnone, refclkPeriod_eq]
    refine ⟨fun h => ?_, fun h => ?_⟩
    · rw [if_neg (Nat.not_le.mpr h)]
      rfl
    · rw [if_pos h]
      exact (exec_tick (s := s.clocked) hr).symm
  case order =>
    intro tick fits work
    have htick : s.tickDue = tick := tickDue_eq s
    refine ⟨fun c hc => ownEvent_tick (htick.trans hc), fun hnone => ⟨fun c hc => ownEvent_trunk (htick.trans hnone) hc,
      fun htrunk => ⟨fun e rest hq hf => ownEvent_take (htick.trans hnone) htrunk hq (fits_iff.mpr hf), fun hq => ?_⟩⟩⟩
    rw [ownEvent_grant (htick.trans hnone) htrunk fun e rest he hf => hq e rest he (fits_iff.mp hf)]
    refine ⟨fun hs hw => if_pos ⟨hs, hasWork_iff.mpr hw⟩, fun h => if_neg fun ⟨hs, hw⟩ => ?_⟩
    exact h.elim (fun hidle => hidle hs) fun hnw => hnw (hasWork_iff.mp hw)
  case trunk =>
    exact ⟨fun _ => trunkDue_send, fun _ => trunkDue_window, fun _ => trunkDue_listen, fun _ => trunkDue_receive,
      trunkDue_guarding, trunkDue_untimed⟩

end Sys2Proof.Machine

/-! ## What the responses still owed hang on (7.1, 9.4)

A RELAY, a graceful RETIRE and a pending DISABLE each keep bytes of the Response FIFO reserved. The table, the polls, the census
and the offers spare all that these hang on; at most an address-only release joins the Release Queue. -/
namespace Sys2Proof.Machine
set_option Elab.async false

/-! ### RELEASING leases and the Release Queue -/

/-- The identity and the address of a lease that is RELEASING. -/
def releasingAs : Option Lease → Option (Identity × Address)
  | some l => match l.status with | .releasing _ => some (l.identity, l.address) | _ => none
  | none => none

theorem isReleasing_eq (o : Option Lease) : isReleasing o = (releasingAs o).isSome := by
  cases o with
  | none => rfl
  | some l => cases hst : l.status <;> simp [isReleasing, releasingAs, hst]

theorem releasingAs_eq_some {o : Option Lease} {x : Identity} {a : Address} :
    releasingAs o = some (x, a) ↔ ∃ l term, o = some l ∧ l.status = .releasing term ∧ l.identity = x ∧ l.address = a := by
  cases o with
  | none => simp [releasingAs]
  | some l => cases hst : l.status <;> simp [releasingAs, hst]

/-- A lease in a state other than RELEASING. -/
theorem lease_unreleasing {s : State} {n : Slot} {l : Lease} {st : LeaseStatus} (hl : s.lease n = some l)
    (hst : l.status = st) (h : releasingAs (some { l with status := st }) = none := by rfl) :
    releasingAs (s.lease n) = none := by
  subst hst
  rw [hl]
  exact h

/-- A FREE slot is not RELEASING. -/
theorem slot_unreleasing {s : State} {n : Slot} (hl : s.lease n = none) : releasingAs (s.lease n) = none := by
  rw [hl]
  rfl

/-- The Release Queue within its size, with no address twice (R147). -/
def ReleasesFit (rs : List Release) : Prop := rs.length ≤ 16 ∧ (rs.map (fun e => e.address)).Nodup

/-- `ts` is `rs` with address-only entries at its tail that fit the queue. -/
def ReleasesGrow (rs ts : List Release) : Prop :=
  ∃ es, ts = rs ++ es ∧ (∀ e ∈ es, e.isLease = false) ∧ (ReleasesFit rs → ReleasesFit ts)

theorem ReleasesGrow.refl (rs : List Release) : ReleasesGrow rs rs := ⟨[], by simp, nofun, id⟩

theorem ReleasesGrow.trans {rs ts us : List Release} (h : ReleasesGrow rs ts) (k : ReleasesGrow ts us) :
    ReleasesGrow rs us := by
  obtain ⟨es, rfl, hes, hf⟩ := h
  obtain ⟨fs, rfl, hfs, hg⟩ := k
  refine ⟨es ++ fs, List.append_assoc .., fun e he => ?_, hg ∘ hf⟩
  rcases List.mem_append.mp he with he | he
  · exact hes e he
  · exact hfs e he

/-- One entry for a new address joins a queue with room. -/
theorem ReleasesFit.append {rs : List Release} {e : Release} (h : ReleasesFit rs) (hroom : rs.length < 16)
    (hnew : ∀ k ∈ rs, k.address ≠ e.address) : ReleasesFit (rs ++ [e]) := by
  obtain ⟨-, hnodup⟩ := h
  refine ⟨by simpa using hroom, ?_⟩
  rw [List.map_append, List.map_singleton]
  refine hnodup.append (List.nodup_singleton _) (List.disjoint_singleton.mpr fun hmem => ?_)
  obtain ⟨k, hk, ha⟩ := List.mem_map.mp hmem
  exact hnew k hk ha

/-! ### The changes that spare them -/

/-- From `s` to `t` the pins, the host port, the relays, the Admission List, the Engine and the RELEASING leases stay, and the
Release Queue keeps its entries. -/
structure State.Spares (s t : State) : Prop where
  pins      : t.pins = s.pins
  host      : t.host = s.host
  relays    : t.relays = s.relays
  admission : t.enrol.admission = s.enrol.admission
  engine    : t.engine = s.engine
  releases  : ReleasesGrow s.releases t.releases
  leases    : ∀ n, releasingAs (t.lease n) = releasingAs (s.lease n)

namespace State.Spares

/-- A change of other blocks alone. -/
theorem same {s t : State} (h : t.pins = s.pins ∧ t.host = s.host ∧ t.relays = s.relays ∧
    t.enrol.admission = s.enrol.admission ∧ t.engine = s.engine ∧ t.releases = s.releases ∧
    t.table.slots = s.table.slots := by exact ⟨rfl, rfl, rfl, rfl, rfl, rfl, rfl⟩) : s.Spares t := by
  obtain ⟨hpins, hhost, hrelays, hadmission, hengine, hreleases, hslots⟩ := h
  exact ⟨hpins, hhost, hrelays, hadmission, hengine, hreleases ▸ .refl _, fun n => by simp only [State.lease, hslots]⟩

theorem refl (s : State) : s.Spares s := same

theorem trans {s t u : State} (h : s.Spares t) (k : t.Spares u) : s.Spares u where
  pins := k.pins.trans h.pins
  host := k.host.trans h.host
  relays := k.relays.trans h.relays
  admission := k.admission.trans h.admission
  engine := k.engine.trans h.engine
  releases := h.releases.trans k.releases
  leases n := (k.leases n).trans (h.leases n)

/-- Other blocks may change after. -/
theorem andSame {s t u : State} (h : s.Spares t) (k : u.pins = t.pins ∧ u.host = t.host ∧ u.relays = t.relays ∧
    u.enrol.admission = t.enrol.admission ∧ u.engine = t.engine ∧ u.releases = t.releases ∧
    u.table.slots = t.table.slots := by exact ⟨rfl, rfl, rfl, rfl, rfl, rfl, rfl⟩) : s.Spares u := h.trans (same k)

/-- Other blocks may change before. -/
theorem afterSame {s t u : State} (h : t.Spares u) (k : t.pins = s.pins ∧ t.host = s.host ∧ t.relays = s.relays ∧
    t.enrol.admission = s.enrol.admission ∧ t.engine = s.engine ∧ t.releases = s.releases ∧
    t.table.slots = s.table.slots := by exact ⟨rfl, rfl, rfl, rfl, rfl, rfl, rfl⟩) : s.Spares u := (same k).trans h

/-- A cause flag may be set after. -/
theorem andRaise {s t : State} {c : Cause} (h : s.Spares t) : s.Spares (t.raise c) := h.andSame

/-- One of two changes, by a condition. -/
theorem cond {s t u : State} {c : Prop} [Decidable c] (h : c → s.Spares t) (k : ¬c → s.Spares u) :
    s.Spares (if c then t else u) := by
  split
  · exact h ‹_›
  · exact k ‹_›

theorem foldl {α : Type} {f : State → α → State} (h : ∀ (s : State) (a : α), s.Spares (f s a)) (xs : List α) (s : State) :
    s.Spares (xs.foldl f s) := by
  induction xs generalizing s with
  | nil => exact refl s
  | cons x xs ih => exact (h s x).trans (ih _)

/-- One slot is written, and is RELEASING after if and only if it was before. -/
theorem write {s t : State} {n : Slot} {o : Option Lease} (hl : ∀ m, t.lease m = if m = n then o else s.lease m)
    (ho : releasingAs o = releasingAs (s.lease n)) (h : t.pins = s.pins ∧ t.host = s.host ∧ t.relays = s.relays ∧
      t.enrol.admission = s.enrol.admission ∧ t.engine = s.engine ∧ t.releases = s.releases := by
        exact ⟨rfl, rfl, rfl, rfl, rfl, rfl⟩) : s.Spares t := by
  obtain ⟨hpins, hhost, hrelays, hadmission, hengine, hreleases⟩ := h
  refine ⟨hpins, hhost, hrelays, hadmission, hengine, hreleases ▸ .refl _, fun m => ?_⟩
  rw [hl]
  split
  · next e => rw [ho, e]
  · rfl

/-- One slot is written that is RELEASING neither before nor after. -/
theorem aside {s t : State} {n : Slot} {o : Option Lease} (hn : releasingAs (s.lease n) = none)
    (hl : ∀ m, t.lease m = if m = n then o else s.lease m) (ho : releasingAs o = none := by rfl)
    (h : t.pins = s.pins ∧ t.host = s.host ∧ t.relays = s.relays ∧ t.enrol.admission = s.enrol.admission ∧
      t.engine = s.engine ∧ t.releases = s.releases := by exact ⟨rfl, rfl, rfl, rfl, rfl, rfl⟩) : s.Spares t :=
  write hl (ho.trans hn.symm) h

/-- What is not RELEASING does not become so. -/
theorem unreleasing {s t : State} (h : s.Spares t) {n : Slot} (hn : releasingAs (s.lease n) = none) :
    releasingAs (t.lease n) = none := (h.leases n).trans hn

/-! ### The Poll Ring and its walk -/

/-- A walk writes cadence counts alone. -/
theorem ofWalk {s t : State} (h : s.WalksTo t) : s.Spares t := by
  obtain ⟨hpins, hhost, -, henrol, -, hreleases, hrelays, hengine, -⟩ := h.frame
  obtain ⟨counts, hl⟩ := h.lease
  refine ⟨hpins, hhost, hrelays, congrArg Enrolment.admission henrol, hengine, hreleases ▸ .refl _, fun n => ?_⟩
  rw [hl]
  cases s.lease n <;> rfl

theorem pollSettle (s : State) : s.Spares s.pollSettle := ofWalk (.pollSettle s)

theorem joinRing (n : Slot) (s : State) : s.Spares (s.joinRing n) := (ofWalk (.joinRing n s)).afterSame

/-! ### Losing a lease, abandoning an offer, the quality window -/

theorem loseLease {n : Slot} {s : State} (h : releasingAs (s.lease n) = none) (l : Lease) (q : Nat) :
    s.Spares (s.loseLease n l q) := (aside h (State.changeStatus_lease n l (.lost q) s)).andSame

theorem abandonOffer (n : Slot) (q : Nat) (s : State) : s.Spares (s.abandonOffer n q) := by
  unfold State.abandonOffer
  split
  · exact same
  · next l hl =>
    split
    · next hst => exact (aside (lease_unreleasing hl hst) (State.vacate_lease n l q s)).andSame
    · next hst => exact (aside (lease_unreleasing hl hst) (State.changeStatus_lease n l .reserved s)).andSame
    · next hst => exact (aside (lease_unreleasing hl hst) (State.changeStatus_lease n l (.lost q) s)).andSame
    · exact same

/-- A lease keeps its status, its identity and its address. -/
theorem revise {s : State} {n : Slot} {l k : Lease} (hl : s.lease n = some l)
    (hk : k.status = l.status ∧ k.identity = l.identity ∧ k.address = l.address := by exact ⟨rfl, rfl, rfl⟩) :
    s.Spares (s.putLease n (some k)) := by
  obtain ⟨hst, hx, ha⟩ := hk
  exact write (State.putLease_lease n _ s) (by simp only [hl, releasingAs, hst, hx, ha])

theorem countAttempt (n : Slot) (x : Identity) (a : TrunkAddress) (bad : Bool) (s : State) :
    s.Spares (s.countAttempt n x a bad) := by
  unfold State.countAttempt
  split
  · exact refl s
  · next l hm =>
    have hl := matched_eq_some hm
    have closed (p : Prop) [Decidable p] {k : Lease} (h : s.Spares (s.putLease n (some k))) :
        s.Spares (if p then s.putLease n (some k) else (s.putLease n (some k)).handOver n .quality) :=
      cond (fun _ => h) fun _ => h.andSame
    exact cond
      (fun _ => cond (fun _ => (closed _ (revise hl)).andRaise) fun _ => closed _ (revise hl))
      fun _ => revise hl

/-! ### Polling -/

theorem renew {n : Slot} {s : State} (h : releasingAs (s.lease n) = none) (l : Lease) (wasSuspect : Bool) (w : Half) :
    s.Spares (s.renew n l wasSuspect w) := by
  have written := aside (o := some { l with
    status := .bound (s.params.leaseTerm * 4) 0, lastStatus := some w }) h (State.putLease_lease n _ s)
  have stored : s.Spares (s.storeStatus n { l with status := .bound (s.params.leaseTerm * 4) 0 } w) :=
    cond (fun _ => written) fun _ => written.andSame
  exact cond (fun _ => stored.andSame) fun _ => stored

theorem countMiss {n : Slot} {s : State} (h : releasingAs (s.lease n) = none) (l : Lease) (term miss : Nat)
    (wasSuspect : Bool) : s.Spares (s.countMiss n l term miss wasSuspect) :=
  cond (fun _ => loseLease h l _) fun _ => cond (fun _ => aside h (State.putLease_lease n _ s)) fun _ =>
    cond (fun _ => aside h (State.changeStatus_lease n l _ s)) fun _ => aside h (State.putLease_lease n _ s)

theorem pollEffect (t : Txn) (o : AttemptOutcome) (s : State) : s.Spares (s.pollEffect t o) := by
  unfold State.pollEffect
  split
  · split
    · exact refl s
    · next l hm =>
      have hl := matched_eq_some hm
      split
      · next hst => exact renew (lease_unreleasing hl hst) _ _ _
      · next hst => exact renew (lease_unreleasing hl hst) _ _ _
      · next hst => exact countMiss (lease_unreleasing hl hst) _ _ _ _
      · next hst => exact countMiss (lease_unreleasing hl hst) _ _ _ _
      · next hst => exact countMiss (lease_unreleasing hl hst) _ _ _ _
      · next hst => exact countMiss (lease_unreleasing hl hst) _ _ _ _
      · exact refl s
  · exact refl s

theorem pollTaken (n : Slot) (s : State) : s.Spares (s.pollTaken n) := by
  unfold State.pollTaken
  split
  · exact cond (fun _ => same) fun _ => same
  · exact same

theorem pollDone (t : Txn) (o : AttemptOutcome) (s : State) : s.Spares (s.pollDone t o) := by
  unfold State.pollDone
  split
  · exact ((pollEffect t o s).trans (pollTaken _ _)).trans (pollSettle _)
  · exact refl s

theorem setPollMode (mode : PollMode) (s : State) : s.Spares (s.setPollMode mode) :=
  cond (fun _ => refl s) fun _ => cond (fun _ => same) fun _ =>
    cond (fun _ => (ofWalk (.beginRound _)).afterSame) fun _ => same

/-! ### Census -/

theorem walkOrWait (s : State) : s.Spares s.walkOrWait := by
  unfold State.walkOrWait
  split
  · exact same
  · split <;> exact same

theorem censusWalk (s : State) : s.Spares s.censusWalk :=
  cond (fun _ => (walkOrWait _).afterSame) fun _ => walkOrWait s

/-- An address-only release joins a queue with room, for an address that has no entry (R138). -/
theorem offerRelease (a : Address) {r : ReleaseReason} (hr : Release.isLease ⟨a, r, false⟩ = false) (s : State) :
    s.Spares (s.offerRelease a r) := by
  unfold State.offerRelease
  refine cond (fun _ => same) fun hnew => cond (fun _ => same) fun hroom => ?_
  have grown : ReleasesGrow s.releases (s.releases ++ [⟨a, r, false⟩]) :=
    ⟨_, rfl, by simpa using hr, fun h => h.append (Nat.not_le.mp hroom) (by simpa using hnew)⟩
  exact ⟨rfl, rfl, rfl, rfl, rfl, grown, fun _ => rfl⟩

theorem conflictAt (a : Address) (s : State) : s.Spares (s.conflictAt a) := (offerRelease a rfl s).andRaise

/-- A re-bound lease was LOST (R140). -/
theorem rebind {n : Slot} {s : State} (h : releasingAs (s.lease n) = none) (l : Lease) (q : Nat) (a : Address) (cls : Byte)
    (units : Nat) : s.Spares (s.rebind n l q a cls units) := by
  have moved : s.Spares (if l.address = a then s else (s.putEntry l.address (quarantineEntry q)).putEntry a (.held n)) :=
    cond (fun _ => refl s) fun _ => same
  have bound := aside (moved.unreleasing h) (State.changeStatus_lease n (rebound l a cls) (.bound (4 * units) 0) _)
  exact ((moved.trans bound).andSame (u := State.countAdopted _)).trans (joinRing n _)

/-- A new lease takes a FREE slot. -/
theorem createLease {n : Slot} {s : State} {l : Lease} (hn : s.freeSlot = some n)
    (hl : releasingAs (some l) = none := by rfl) : s.Spares (s.createLease n l) :=
  aside (slot_unreleasing (freeSlot_eq_some hn)) (State.createLease_lease n l s) hl

theorem adopt (x : Identity) (a : Address) (cls : Byte) (units : Nat) (s : State) : s.Spares (s.adopt x a cls units) := by
  unfold State.adopt
  split
  · next n hn =>
    have created := createLease hn (l := newLease (.bound (4 * units) 0) x a (some cls) .adopted)
    exact (created.andSame (u := State.countAdopted _)).trans (joinRing n _)
  · exact same

theorem takeAnswer (a : Address) (x : Identity) (cls : Byte) (units : Nat) (s : State) :
    s.Spares (s.takeAnswer a x cls units) := by
  unfold State.takeAnswer
  split
  · split
    · exact refl s
    · next l hl =>
      refine cond (fun _ => ?_) fun _ => ?_
      · split
        · next hst => exact rebind (lease_unreleasing hl hst) _ _ _ _ _
        · exact refl s
      · split
        · exact offerRelease _ rfl s
        · next hst => exact cond (fun _ => conflictAt a s) fun _ => rebind (lease_unreleasing hl hst) _ _ _ _ _
        · exact conflictAt a s
  · exact cond (fun _ => conflictAt a s) fun _ => adopt x a cls units s

theorem judgeProbe (a : Address) (o : AttemptOutcome) (payload : List Byte) (s : State) :
    s.Spares (s.judgeProbe a o payload) := by
  cases o with
  | good => exact cond (fun _ => refl s) fun _ => takeAnswer _ _ _ _ s
  | noReply => exact refl s
  | garbled r => exact (offerRelease a rfl s).andRaise
  | lineFault => exact refl s

theorem probeTaken (s : State) : s.Spares s.probeTaken := by
  unfold State.probeTaken
  dsimp only
  split
  · exact cond (fun _ => (censusWalk _).afterSame) fun _ => same
  all_goals exact (censusWalk _).afterSame

theorem probeDone (t : Txn) (o : AttemptOutcome) (s : State) : s.Spares (s.probeDone t o) := by
  unfold State.probeDone
  split
  · have judged := judgeProbe ‹Address› o (t.reply.getD []) s
    dsimp only
    split
    · exact cond (fun _ => judged.trans (probeTaken _)) fun _ => judged.andSame
    · exact judged.andSame
  · exact refl s

theorem beginSweep (first last : Address) (mode : CensusMode) (s : State) : s.Spares (s.beginSweep first last mode) := by
  unfold State.beginSweep
  dsimp only
  split
  · exact same
  all_goals exact (censusWalk _).afterSame

theorem takeStep (s : State) : s.Spares s.takeStep := by
  unfold State.takeStep
  split
  · exact censusWalk s
  · exact same
  · exact refl s

theorem timerStep (s : State) : s.Spares s.timerStep := by
  rw [timerStep_eq]
  exact cond (fun _ => takeStep s) fun _ => cond (fun _ => censusWalk s) fun _ => refl s

/-! ### Enrolment -/

theorem bindOffer {n : Slot} {s : State} (h : releasingAs (s.lease n) = none) (l : Lease) : s.Spares (s.bindOffer n l) :=
  (aside h (State.changeStatus_lease n { l with cadenceCount := 1, lastStatus := none }
    (.bound (s.params.leaseTerm * 4) 0) s)).andSame.trans (joinRing n _)

theorem offerDone (t : Txn) (o : AttemptOutcome) (s : State) : s.Spares (s.offerDone t o) := by
  unfold State.offerDone
  split
  · split
    · exact refl s
    · next hm =>
      obtain ⟨hl, prior, hst⟩ := offeredLease_eq_some hm
      cases o with
      | good => exact bindOffer (lease_unreleasing hl hst) _
      | noReply => exact abandonOffer _ _ s
      | garbled r => exact abandonOffer _ _ s
      | lineFault => exact refl s
  · exact refl s

theorem countFailedOffer (t : Txn) (s : State) : s.Spares (s.countFailedOffer t) := by
  unfold State.countFailedOffer
  split <;> exact same

theorem rejoin {n : Slot} {s : State} (h : releasingAs (s.lease n) = none) (l : Lease) (prior : Prior) (j : Join) :
    s.Spares (s.rejoin n l prior j) :=
  (aside h (State.changeStatus_lease n { l with cls := some j.cls } (.offered prior) s)).andSame

theorem newcomer (j : Join) (s : State) : s.Spares (s.newcomer j) := by
  unfold State.newcomer
  refine cond (fun _ => same) fun _ => ?_
  split
  · exact same
  · next n hn =>
    split
    · exact same
    · next a _ => exact (createLease hn (l := newLease (.offered .fresh) j.identity a (some j.cls) .joined)).andSame

theorem takeJoin (j : Join) (s : State) : s.Spares (s.takeJoin j) := by
  unfold State.takeJoin
  split
  · exact newcomer j s
  · split
    · exact refl s
    · next l hl =>
      split
      · exact refl s
      · next hst => exact rejoin (lease_unreleasing hl hst) _ _ _
      · next hst => exact rejoin (lease_unreleasing hl hst) _ _ _
      · next hst => exact (rejoin (lease_unreleasing hl hst) _ _ _).andSame.trans (pollSettle _)
      · next hst => exact (rejoin (lease_unreleasing hl hst) _ _ _).andSame.trans (pollSettle _)
      · exact refl s

theorem takeResults (seen : List Identity) (results : List SubSlotResult) (s : State) :
    s.Spares (s.takeResults seen results) := by
  induction results generalizing seen s with
  | nil => exact refl s
  | cons r rest ih =>
    cases r with
    | empty => exact ih seen s
    | collided => exact ih seen s
    | join j => exact cond (fun _ => ih seen s) fun _ => (takeJoin j s).trans (ih _ _)

theorem evaluateSolicit (results : List SubSlotResult) (s : State) : s.Spares (s.evaluateSolicit results) := by
  unfold State.evaluateSolicit
  split
  · exact refl s
  all_goals exact takeResults [] results s

theorem countTxnAttempt (t : Txn) (o : AttemptOutcome) (s : State) : s.Spares (s.countTxnAttempt t o) := by
  unfold State.countTxnAttempt
  split
  · exact countAttempt _ _ _ _ s
  · exact countAttempt _ _ _ _ s
  · exact refl s

/-! ### Leases retired, dropped, and counted down -/

/-- A forced RETIRE frees a lease that is not RELEASING (R22). -/
theorem retireNow {n : Slot} {s : State} (h : releasingAs (s.lease n) = none) (l : Lease) : s.Spares (s.retireNow n l) :=
  (aside h (State.vacate_lease n l _ s)).andSame.trans (pollSettle _)

theorem dropLease (s : State) (n : Slot) : s.Spares (s.dropLease n) := by
  unfold State.dropLease
  split
  · exact refl s
  · next hl =>
    split
    · next hst => exact loseLease (lease_unreleasing hl hst) _ _
    · next hst => exact loseLease (lease_unreleasing hl hst) _ _
    · exact abandonOffer _ _ s
    · exact refl s

theorem strobeLease (s : State) (n : Slot) : s.Spares (s.strobeLease n) := by
  unfold State.strobeLease
  split
  · exact refl s
  · next l hl =>
    split
    · next hst =>
      have hn := lease_unreleasing hl hst
      exact cond (fun _ => loseLease hn l _) fun _ => aside hn (State.putLease_lease n _ s)
    · next hst =>
      have hn := lease_unreleasing hl hst
      exact cond (fun _ => loseLease hn l _) fun _ => aside hn (State.putLease_lease n _ s)
    · next hst =>
      have hn := lease_unreleasing hl hst
      exact cond (fun _ => aside hn (State.vacate_lease n l _ s)) fun _ => aside hn (State.putLease_lease n _ s)
    · exact refl s

theorem takeStrobe (s : State) : s.Spares s.takeStrobe :=
  ((foldl (f := State.strobeAddress) (fun _ _ => same) allAddresses s).trans (foldl strobeLease allSlots _)).trans
    (pollSettle _)

theorem settlePolling (s : State) : s.Spares s.settlePolling :=
  cond (fun _ => (ofWalk (.beginRound _)).afterSame) fun _ => same

/-! ### A parameter written (R175) -/

/-- A change of every lease that keeps the identity, the address, and RELEASING. -/
theorem mapLeases {f : Lease → Lease} (hf : ∀ l, releasingAs (some (f l)) = releasingAs (some l)) (s : State) :
    s.Spares (s.mapLeases f) := by
  refine foldl (fun t n => ?_) allSlots s
  split
  · next l hl => exact write (State.putLease_lease n _ t) (by rw [hl, hf])
  · exact refl t

theorem releasingAs_clearMiss (l : Lease) : releasingAs (some l.clearMiss) = releasingAs (some l) := by
  unfold Lease.clearMiss
  split
  · next h => simp [releasingAs, h]
  · next h => simp [releasingAs, h]
  · rfl

theorem writeEffect (q : Param) (before after : Nat) (s : State) : s.Spares (s.writeEffect q before after) := by
  unfold State.writeEffect
  split
  · exact same
  · exact mapLeases releasingAs_clearMiss s
  · exact mapLeases releasingAs_clearMiss s
  · exact cond (fun _ => refl s) fun _ => mapLeases (f := Lease.restartWindow) (fun _ => rfl) s
  · exact refl s

/-! ### The events of the Timing Unit -/

theorem secondsEvent (s : State) : s.Spares s.secondsEvent := cond (fun _ => (takeStrobe _).afterSame) fun _ => refl s

theorem paceEvent (s : State) : s.Spares s.paceEvent := by
  refine cond (fun _ => cond (fun _ => ?_) fun _ => same) fun _ => refl s
  split
  · exact (ofWalk (.beginRound _)).afterSame
  · exact same
  · exact same

theorem solicitEvent (s : State) : s.Spares s.solicitEvent :=
  cond (fun _ => cond (fun _ => same) fun _ => same) fun _ => refl s

theorem censusStepEvent (s : State) : s.Spares s.censusStepEvent :=
  cond (fun _ => (timerStep _).afterSame) fun _ => refl s

/-- The events of a tick but for the fault drop. -/
theorem tickEvents (s : State) : s.Spares s.secondsEvent.paceEvent.solicitEvent.censusStepEvent :=
  ((secondsEvent s).trans (paceEvent _)).trans ((solicitEvent _).trans (censusStepEvent _))

end State.Spares
end Sys2Proof.Machine

/-! ## The account of the response space (9.4)

The bytes reserved are those of the deferred requests, so every change of a queue is told with the bytes it frees or takes. -/
namespace Sys2Proof.Machine
set_option Elab.async false

/-! ### The books -/

/-- The bytes reserved are those of the deferred requests, `b` bytes of the Response FIFO are still free beside them, and the
queues that the deferred requests stand in are sound. -/
structure State.Books (b : Nat) (s : State) : Prop where
  reserved : s.host.reserved = s.deferredBytes
  room     : s.host.responses.length + s.host.reserved + b ≤ 512
  queues   : s.QueuesFit
  releases : s.ReleasesMatch

/-- The lease entries and the RELEASING leases belong together, read from the identity and the address of such a lease. -/
theorem releasesMatch_iff {s : State} : s.ReleasesMatch ↔
    (∀ e ∈ s.releases, ∀ n tag, e.reason = .retire n tag → ∃ x, releasingAs (s.lease n) = some (x, e.address)) ∧
    ∀ n, (releasingAs (s.lease n)).isSome = true → s.releases.any (Release.ends n) = true := by
  have sound (e : Release) : s.entrySound e = true ↔
      ∀ n tag, e.reason = .retire n tag → ∃ x, releasingAs (s.lease n) = some (x, e.address) := by
    refine ⟨fun h n tag hr => ?_, fun h => ?_⟩
    · obtain ⟨l, term, hl, hst, ha⟩ := entrySound_retire hr h
      exact ⟨l.identity, releasingAs_eq_some.mpr ⟨l, term, hl, hst, rfl, ha⟩⟩
    · cases hr : e.reason with
      | retire n tag =>
        obtain ⟨x, hx⟩ := h n tag hr
        obtain ⟨l, term, hl, hst, -, ha⟩ := releasingAs_eq_some.mp hx
        simp [State.entrySound, hr, hl, hst, ha]
      | _ => simp [State.entrySound, hr]
  simp only [State.ReleasesMatch, sound, isReleasing_eq]
  rfl

/-- An address-only entry completes no lease. -/
theorem ends_eq_false {e : Release} (h : e.isLease = false) (n : Slot) : e.ends n = false := by
  cases hr : e.reason <;> simp_all [Release.isLease, Release.ends]

/-- A lease entry completes the lease of its slot alone. -/
theorem ends_retire {e : Release} {n : Slot} {tag : Byte} (hr : e.reason = .retire n tag) (m : Slot) :
    e.ends m = decide (m = n) := by
  simp [Release.ends, hr, Bool.beq_eq_decide_eq, eq_comm]

theorem queuesFit_iff {s : State} : s.QueuesFit ↔
    (s.enrol.admission.length ≤ 32 ∧ s.enrol.admission.Nodup) ∧ ReleasesFit s.releases ∧ s.relays.length ≤ 8 := by
  simp only [State.QueuesFit, ReleasesFit]
  tauto

/-- Each relay keeps 18 bytes reserved. -/
theorem deferredBytes_setRelays (rs : List Relay) (s : State) :
    (s.setRelays rs).deferredBytes + 18 * s.relays.length = s.deferredBytes + 18 * rs.length := by
  have after : (s.setRelays rs).deferredBytes = 18 * rs.length + 11 * s.releases.countP Release.isLease +
      (if s.engine.pendingDisable.isSome then 5 else 0) := rfl
  rw [after, State.deferredBytes]
  omega

/-- What the reserved bytes and the queues depend on. -/
theorem State.Books.congr {b c : Nat} {s t : State} (hs : s.Books b)
    (hroom : t.host.responses.length + c ≤ s.host.responses.length + b)
    (h : t.host.reserved = s.host.reserved ∧ t.relays.length = s.relays.length ∧
      t.enrol.admission = s.enrol.admission ∧ t.releases = s.releases ∧
      t.engine.pendingDisable = s.engine.pendingDisable ∧ t.table.slots = s.table.slots := by
        exact ⟨rfl, rfl, rfl, rfl, rfl, rfl⟩) : t.Books c := by
  obtain ⟨hreserved, hrelays, hadmission, hreleases, hdisable, hslots⟩ := h
  obtain ⟨hr, hb, hq, hm⟩ := hs
  refine ⟨?_, by omega, ?_, ?_⟩
  · rw [hreserved, hr]
    simp only [State.deferredBytes, hrelays, hreleases, hdisable]
  · simpa only [State.QueuesFit, hadmission, hreleases, hrelays] using hq
  · simpa only [State.ReleasesMatch, State.entrySound, State.lease, hreleases, hslots] using hm

/-- A change of other blocks alone. -/
theorem State.Books.same {b : Nat} {s t : State} (hs : s.Books b) (h : t.host.responses = s.host.responses ∧
    t.host.reserved = s.host.reserved ∧ t.relays.length = s.relays.length ∧ t.enrol.admission = s.enrol.admission ∧
    t.releases = s.releases ∧ t.engine.pendingDisable = s.engine.pendingDisable ∧ t.table.slots = s.table.slots := by
      exact ⟨rfl, rfl, rfl, rfl, rfl, rfl, rfl⟩) : t.Books b :=
  hs.congr (by rw [h.1]) h.2

/-- Changes that spare what the responses hang on keep the books. -/
theorem State.Books.spares {b : Nat} {s t : State} (hs : s.Books b) (h : s.Spares t) : t.Books b := by
  obtain ⟨hreserved, hroom, hq, hm⟩ := hs
  obtain ⟨es, hes, hlease, hfit⟩ := h.releases
  obtain ⟨hadmission, hfits, hrelays⟩ := queuesFit_iff.mp hq
  obtain ⟨hentries, hleases⟩ := releasesMatch_iff.mp hm
  have added : es.countP Release.isLease = 0 := List.countP_eq_zero.mpr (by simpa using hlease)
  have counted : t.releases.countP Release.isLease = s.releases.countP Release.isLease := by
    rw [hes, List.countP_append, added, Nat.add_zero]
  refine ⟨?_, by rwa [h.host], queuesFit_iff.mpr ⟨h.admission ▸ hadmission, hfit hfits, h.relays ▸ hrelays⟩,
    releasesMatch_iff.mpr ⟨fun e he n tag hr => ?_, fun n hn => ?_⟩⟩
  · rw [h.host, hreserved]
    simp only [State.deferredBytes, h.relays, h.engine, counted]
  · rw [h.leases]
    rw [hes, List.mem_append] at he
    rcases he with he | he
    · exact hentries e he n tag hr
    · exact absurd (isLease_iff.mpr ⟨n, tag, hr⟩) (by simp [hlease e he])
  · rw [hes, List.any_append, hleases n (h.leases n ▸ hn), Bool.true_or]

/-- A response that fits the room left is written (R189). -/
theorem State.Books.respond {b c : Nat} {s : State} (hs : s.Books b) {code tag : Byte} {r : Result}
    {data : List Byte} (h : data.length + 4 + c ≤ b) : (s.respond code tag r data).Books c := by
  refine hs.congr ?_
  rw [respond_eq_replied, State.replied_responses, List.length_append, responseFrame_length]
  omega

theorem State.Books.answer {b c : Nat} {s : State} (hs : s.Books b) {q : Request} {tag : Byte} {r : Result}
    {data : List Byte} (h : data.length + 4 + c ≤ b) : (s.answer q tag r data).Books c := hs.respond h

/-- A deferred response is written into its reservation, once its request has left its queue (R192). -/
theorem State.Books.settle {b : Nat} {s u : State} (hs : s.Books b) {q : Request} {tag : Byte} {r : Result}
    {data : List Byte} (hhost : u.host = s.host) (hd : u.deferredBytes + q.reservation = s.deferredBytes)
    (hdata : data.length + 4 ≤ q.reservation) (hq : u.QueuesFit) (hm : u.ReleasesMatch) :
    (u.settle q tag r data).Books b := by
  obtain ⟨hreserved, hroom, -, -⟩ := hs
  refine ⟨?_, ?_, hq, hm⟩
  · show u.host.reserved - q.reservation = u.deferredBytes
    rw [hhost]
    omega
  · rw [State.settle_reserved, State.settle_responses, List.length_append, responseFrame_length, hhost]
    omega

/-- A request becomes deferred, into a queue that has taken it (R192). -/
theorem State.Books.defer {b c : Nat} {s u : State} (hs : s.Books b) {q : Request} (hhost : u.host = s.host)
    (hd : u.deferredBytes = s.deferredBytes + q.reservation) (hroom : q.reservation + c ≤ b) (hq : u.QueuesFit)
    (hm : u.ReleasesMatch) : (u.defer q).Books c := by
  obtain ⟨hreserved, hb, -, -⟩ := hs
  refine ⟨?_, ?_, hq, hm⟩
  · show u.host.reserved + q.reservation = u.deferredBytes
    rw [hhost]
    omega
  · rw [State.defer_reserved, hhost]
    show u.host.responses.length + _ + c ≤ 512
    rw [hhost]
    omega

/-! ### Queues that empty -/

/-- From `s` to `t` the RELEASING leases of `gone` end, `freed` bytes of reservations are given back, and responses of no more
bytes are written. -/
structure State.Pays (gone : Slot → Bool) (freed : Nat) (s t : State) : Prop where
  access    : t.host.access = s.host.access
  requests  : t.host.requests = s.host.requests
  pins      : t.pins = s.pins
  relays    : t.relays = s.relays
  releases  : t.releases = s.releases
  admission : t.enrol.admission = s.enrol.admission
  engine    : t.engine = s.engine
  reserved  : t.host.reserved = s.host.reserved - freed
  responses : t.host.responses.length ≤ s.host.responses.length + freed
  leases    : ∀ n, releasingAs (t.lease n) = if gone n then none else releasingAs (s.lease n)

namespace State.Pays

theorem refl (s : State) : s.Pays (fun _ => false) 0 s :=
  ⟨rfl, rfl, rfl, rfl, rfl, rfl, rfl, rfl, Nat.le_refl _, fun _ => rfl⟩

theorem trans {gone more : Slot → Bool} {freed extra : Nat} {s t u : State} (h : s.Pays gone freed t)
    (k : t.Pays more extra u) : s.Pays (fun n => gone n || more n) (freed + extra) u where
  access := k.access.trans h.access
  requests := k.requests.trans h.requests
  pins := k.pins.trans h.pins
  relays := k.relays.trans h.relays
  releases := k.releases.trans h.releases
  admission := k.admission.trans h.admission
  engine := k.engine.trans h.engine
  reserved := by rw [k.reserved, h.reserved, Nat.sub_sub]
  responses := k.responses.trans (by have := h.responses; omega)
  leases n := by
    rw [k.leases, h.leases]
    cases gone n <;> cases more n <;> rfl

/-- A RELEASING lease of the slot ends, if there is one. -/
theorem endReleasing (n : Slot) (full : Bool) (s : State) : s.Pays (fun m => decide (m = n)) 0 (s.endReleasing n full) := by
  have absent (h : releasingAs (s.lease n) = none) : s.Pays (fun m => decide (m = n)) 0 s := by
    refine { refl s with leases := fun m => ?_ }
    by_cases e : m = n
    · simp [e, h]
    · simp [e]
  unfold State.endReleasing
  split
  · next l hl =>
    split
    · refine ⟨rfl, rfl, rfl, rfl, rfl, rfl, rfl, rfl, Nat.le_refl _, fun m => ?_⟩
      rw [State.vacate_lease]
      by_cases e : m = n
      · simp [e, releasingAs]
      · simp [e]
    · next hst =>
      refine absent ?_
      cases h : l.status with
      | releasing term => exact absurd h (hst term)
      | _ => exact lease_unreleasing hl h
  · next hl => exact absent (slot_unreleasing hl)

/-- A deferred response within its reservation. -/
theorem settle {q : Request} {data : List Byte} (h : data.length + 4 ≤ q.reservation) (tag : Byte) (r : Result) (s : State) :
    s.Pays (fun _ => false) q.reservation (s.settle q tag r data) := by
  refine ⟨rfl, rfl, rfl, rfl, rfl, rfl, rfl, rfl, ?_, fun _ => rfl⟩
  rw [State.settle_responses, List.length_append, responseFrame_length]
  omega

/-- Every relay of a list is answered CANCELLED (R63). -/
theorem cancelRelays (es : List Relay) (s : State) : s.Pays (fun _ => false) (18 * es.length) (s.cancelRelays es) := by
  induction es generalizing s with
  | nil => exact refl s
  | cons e rest ih =>
    have first := settle (q := .relay) (data := []) (Nat.le_of_ble_eq_true rfl) e.tag .cancelled s
    have bytes : Request.relay.reservation + 18 * rest.length = 18 * (e :: rest).length := by
      rw [List.length_cons, Nat.mul_add, Nat.add_comm]
      rfl
    have all := first.trans (ih (s.settle .relay e.tag .cancelled []))
    rwa [bytes] at all

/-- The entries of the Release Queue are settled: each that completes a lease ends it and is answered (R63, R70). -/
theorem settleReleases (full withData : Bool) (r : Result) (es : List Release) (s : State) :
    s.Pays (fun n => es.any (Release.ends n)) (11 * es.countP Release.isLease)
      (s.settleReleases full withData r es) := by
  induction es generalizing s with
  | nil => exact refl s
  | cons e rest ih =>
    by_cases he : e.isLease = true
    · obtain ⟨n, tag, hr⟩ := isLease_iff.mp he
      have written : (if withData then (s.endReleasing n full).releaseData n e.address false 0 else []).length + 4 ≤
          Request.retire.reservation := by
        cases withData <;> exact Nat.le_of_ble_eq_true rfl
      have first := (endReleasing n full s).trans (settle written tag r _)
      have all := first.trans (ih _)
      have slots : (fun m => (decide (m = n) || false) || rest.any (Release.ends m)) =
          fun m => (e :: rest).any (Release.ends m) := by
        funext m
        rw [List.any_cons, ends_retire hr, Bool.or_false]
      have bytes : 0 + Request.retire.reservation + 11 * rest.countP Release.isLease =
          11 * (e :: rest).countP Release.isLease := by
        rw [List.countP_cons_of_pos he, Nat.mul_add, Nat.add_comm, Nat.zero_add]
        rfl
      rw [settleReleases_retire hr]
      rwa [slots, bytes] at all
    · have silent : (fun m => (e :: rest).any (Release.ends m)) = fun m => rest.any (Release.ends m) := by
        funext m
        rw [List.any_cons, ends_eq_false (Bool.eq_false_iff.mpr he), Bool.false_or]
      rw [settleReleases_pass he, silent, List.countP_cons_of_neg he]
      exact ih s

end State.Pays

/-- Once its entries have been settled the Release Queue is empty, and no lease is RELEASING (R63, R70). -/
theorem State.Books.settleReleases {b : Nat} {s : State} (hs : s.Books b) {es : List Release}
    (hcount : es.countP Release.isLease = s.releases.countP Release.isLease)
    (hends : ∀ n, es.any (Release.ends n) = s.releases.any (Release.ends n)) (full withData : Bool) (r : Result) :
    ((s.setReleases []).settleReleases full withData r es).Books b := by
  obtain ⟨hreserved, hroom, hq, hm⟩ := hs
  obtain ⟨hadmission, -, hrelays⟩ := queuesFit_iff.mp hq
  obtain ⟨-, hleases⟩ := releasesMatch_iff.mp hm
  have paid := State.Pays.settleReleases full withData r es (s.setReleases [])
  generalize (s.setReleases []).settleReleases full withData r es = t at paid ⊢
  have owed : s.deferredBytes = t.deferredBytes + 11 * es.countP Release.isLease := by
    simp only [State.deferredBytes, paid.relays, paid.releases, paid.engine, hcount, State.setReleases_releases,
      State.setReleases_relays, State.setReleases_engine, List.countP_nil]
    omega
  have reserved : t.host.reserved = s.host.reserved - 11 * es.countP Release.isLease := paid.reserved
  have responses : t.host.responses.length ≤ s.host.responses.length + 11 * es.countP Release.isLease := paid.responses
  refine ⟨by omega, by omega, queuesFit_iff.mpr ⟨paid.admission ▸ hadmission, ?_, paid.relays ▸ hrelays⟩,
    releasesMatch_iff.mpr ⟨fun e he => ?_, fun n hn => ?_⟩⟩
  · rw [paid.releases]
    exact ⟨Nat.zero_le _, List.nodup_nil⟩
  · rw [paid.releases] at he
    cases he
  · rw [paid.leases, hends] at hn
    cases hany : s.releases.any (Release.ends n) with
    | true => simp [hany] at hn
    | false =>
      have none_left := hleases n (by simpa [hany] using hn)
      rw [hany] at none_left
      cases none_left

/-- Once every relay has been cancelled the Relay Queue is empty (R63). -/
theorem State.Books.cancelRelays {b : Nat} {s : State} (hs : s.Books b) :
    ((s.setRelays []).cancelRelays s.relays).Books b := by
  obtain ⟨hreserved, hroom, hq, hm⟩ := hs
  obtain ⟨hadmission, hreleases, -⟩ := queuesFit_iff.mp hq
  have paid := State.Pays.cancelRelays s.relays (s.setRelays [])
  generalize (s.setRelays []).cancelRelays s.relays = t at paid ⊢
  have owed : s.deferredBytes = t.deferredBytes + 18 * s.relays.length := by
    simp only [State.deferredBytes, paid.relays, paid.releases, paid.engine, State.setRelays_relays,
      State.setRelays_releases, State.setRelays_engine, List.length_nil]
    omega
  have reserved : t.host.reserved = s.host.reserved - 18 * s.relays.length := paid.reserved
  have responses : t.host.responses.length ≤ s.host.responses.length + 18 * s.relays.length := paid.responses
  have leases (n : Slot) : releasingAs (t.lease n) = releasingAs (s.lease n) := paid.leases n
  refine ⟨by omega, by omega, queuesFit_iff.mpr ⟨paid.admission ▸ hadmission, ?_, ?_⟩, releasesMatch_iff.mpr ?_⟩
  · rw [paid.releases]
    exact hreleases
  · rw [paid.relays]
    exact Nat.zero_le _
  · rw [paid.releases]
    simpa only [leases, State.setRelays_releases] using releasesMatch_iff.mp hm

end Sys2Proof.Machine

/-! ## The transaction in flight beside the books (3.1, 7.2) -/
namespace Sys2Proof.Machine
set_option Elab.async false

/-! ### The Engine and what it has in flight -/

/-- A RELEASE is the Release Queue head's: it was granted from the marked head, with its address, and of a lease entry with its
slot, its tag and the lease's identity (R52, R151). -/
def State.Carries (s : State) (t : Txn) : Prop :=
  t.kind = .release → ∃ e rest, s.releases = e :: rest ∧ e.inFlight = true ∧ t.address = .station e.address ∧
    ∀ n tag, e.reason = .retire n tag →
      t.slot = some n ∧ t.tag = some tag ∧ t.identity = (s.lease n).map (fun l => l.identity)

theorem releaseInFlight_iff {s : State} : s.releaseInFlight = true ↔ ∀ t ∈ s.engine.txn, s.Carries t := by
  unfold State.releaseInFlight State.Carries
  cases s.engine.txn with
  | none => simp
  | some t =>
    by_cases hk : t.kind = .release
    · cases hrs : s.releases with
      | nil => simp [hk]
      | cons e rest => cases hr : e.reason <;> simp [hk, hr, and_assoc]
    · simp [hk]

theorem replyFits_iff {s : State} : s.replyFits = true ↔ ∀ t ∈ s.engine.txn, (t.reply.getD []).length ≤ 8 := by
  unfold State.replyFits
  cases s.engine.txn <;> simp

/-- What a RELEASE carries hangs on the head's capture alone. -/
theorem State.Carries.congr {s u : State} {t t' : Txn} (h : s.Carries t)
    (k : u.releases = s.releases ∧ u.table.slots = s.table.slots := by exact ⟨rfl, rfl⟩)
    (ht : t'.kind = t.kind ∧ t'.slot = t.slot ∧ t'.tag = t.tag ∧ t'.identity = t.identity ∧ t'.address = t.address := by
      exact ⟨rfl, rfl, rfl, rfl, rfl⟩) : u.Carries t' := by
  obtain ⟨hreleases, hslots⟩ := k
  obtain ⟨hkind, hslot, htag, hidentity, haddress⟩ := ht
  simpa only [State.Carries, State.lease, hreleases, hslots, hkind, hslot, htag, hidentity, haddress] using h

/-- The head and its RELEASING lease stay where they are spared. -/
theorem State.Carries.spares {s u : State} {t : Txn} (h : s.Carries t) (hm : s.ReleasesMatch) (k : s.Spares u) :
    u.Carries t := by
  intro hkind
  obtain ⟨e, rest, hrs, hmark, ha, hcapture⟩ := h hkind
  obtain ⟨es, hes, -, -⟩ := k.releases
  refine ⟨e, rest ++ es, by rw [hes, hrs, List.cons_append], hmark, ha, fun n tag hr => ?_⟩
  obtain ⟨hslot, htag, hidentity⟩ := hcapture n tag hr
  obtain ⟨x, hx⟩ := (releasesMatch_iff.mp hm).1 e (hrs ▸ List.mem_cons_self) n tag hr
  obtain ⟨l, -, hl, -, hlx, -⟩ := releasingAs_eq_some.mp hx
  obtain ⟨k, -, hk, -, hkx, -⟩ := releasingAs_eq_some.mp ((k.leases n).trans hx)
  exact ⟨hslot, htag, by rw [hidentity, hl, hk, Option.map_some, Option.map_some, hlx, hkx]⟩

/-- The Engine agrees with what it has in flight and with the level of TRUNK_FAULT. -/
structure State.Flight (s : State) : Prop where
  engine  : s.EngineSound
  carries : ∀ t ∈ s.engine.txn, s.Carries t
  reply   : ∀ t ∈ s.engine.txn, (t.reply.getD []).length ≤ 8
  fault   : s.FaultSound

/-- The trunk can be used: the part is out of reset, TRUNK_FAULT is low, and no fault drop is due. -/
def State.Live (s : State) : Prop := s.pins.rstLow = false ∧ s.pins.fault = false ∧ s.engine.dropDue = false

/-- With the trunk free for use the Engine may be in any state. -/
theorem State.Live.faultSound {s : State} (h : s.Live) : s.FaultSound := by
  obtain ⟨hr, hf, hd⟩ := h
  simp [State.FaultSound, hr, hf, hd]

/-- The Engine leaves OFF and HELD on a trunk that can be used alone. -/
theorem State.FaultSound.live {s : State} (h : s.FaultSound) (hoff : s.engine.state ≠ .off)
    (hheld : s.engine.state ≠ .held) : s.Live := by
  obtain ⟨hfault, hdrop, hreset⟩ := h
  have hf : s.pins.fault = false := by
    by_contra hhigh
    rcases hfault (by simpa using hhigh) with e | e
    · exact hoff e
    · exact hheld e
  refine ⟨?_, hf, ?_⟩
  · by_contra hlow
    exact hoff (hreset (by simpa using hlow)).1
  · by_contra hdue
    have hhigh := hdrop (by simpa using hdue)
    rw [hf] at hhigh
    cases hhigh

/-- OFF and HELD agree with a high TRUNK_FAULT, out of reset. -/
theorem faultSound_aside {s : State} (hs : s.engine.state = .off ∨ s.engine.state = .held) (hr : s.pins.rstLow = false)
    (hd : s.engine.dropDue = true → s.pins.fault = true) : s.FaultSound :=
  ⟨fun _ => hs, hd, fun h => by rw [hr] at h; cases h⟩

namespace State.Flight

variable {s : State}

/-- A transaction in flight has a trunk that can be used. -/
theorem live (hs : s.Flight) {t : Txn} (ht : s.engine.txn = some t) : s.Live := by
  have hstate := hs.engine.1 (by rw [ht]; rfl)
  refine hs.fault.live (fun e => ?_) fun e => ?_
  · simp [e] at hstate
  · simp [e] at hstate

/-- With nothing in flight. -/
theorem free (ht : s.engine.txn = none) (hs : ¬s.engine.state.Busy) (hf : s.FaultSound) : s.Flight :=
  ⟨engineSound_free ht hs, by simp [ht], by simp [ht], hf⟩

/-- What the Engine has in flight stays. -/
theorem congr {t : State} (hs : s.Flight) (hc : ∀ x ∈ s.engine.txn, s.Carries x → t.Carries x)
    (h : t.pins = s.pins ∧ t.engine.state = s.engine.state ∧ t.engine.txn = s.engine.txn ∧
      t.engine.dropDue = s.engine.dropDue := by exact ⟨rfl, rfl, rfl, rfl⟩) : t.Flight := by
  obtain ⟨hengine, hcarries, hreply, hfault⟩ := hs
  obtain ⟨hpins, hstate, htxn, hdrop⟩ := h
  refine ⟨?_, ?_, by rwa [htxn], ?_⟩
  · simpa only [State.EngineSound, hstate, htxn] using hengine
  · rw [htxn]
    exact fun x hx => hc x hx (hcarries x hx)
  · simpa only [State.FaultSound, hpins, hstate, hdrop] using hfault

end State.Flight

/-! ### The account of the space and of the flight together -/

/-- The books, with `b` bytes of the Response FIFO still free, and the Engine. -/
structure State.Accounts (b : Nat) (s : State) : Prop where
  books  : s.Books b
  flight : s.Flight

/-- Changes that spare what the responses hang on keep the account. -/
theorem State.Accounts.spares {b : Nat} {s t : State} (hs : s.Accounts b) (h : s.Spares t) : t.Accounts b :=
  ⟨hs.books.spares h, hs.flight.congr (fun _ _ hc => hc.spares hs.books.releases h)
    ⟨h.pins, by rw [h.engine], by rw [h.engine], by rw [h.engine]⟩⟩

/-- A change of other blocks, or of the Engine's times, its reception and its counts. -/
theorem State.Accounts.same {b : Nat} {s t : State} (hs : s.Accounts b) (h : t.host.responses = s.host.responses ∧
    t.host.reserved = s.host.reserved ∧ t.relays.length = s.relays.length ∧ t.enrol.admission = s.enrol.admission ∧
    t.releases = s.releases ∧ t.engine.pendingDisable = s.engine.pendingDisable ∧ t.table.slots = s.table.slots := by
      exact ⟨rfl, rfl, rfl, rfl, rfl, rfl, rfl⟩) (k : t.pins = s.pins ∧ t.engine.state = s.engine.state ∧
      t.engine.txn = s.engine.txn ∧ t.engine.dropDue = s.engine.dropDue := by exact ⟨rfl, rfl, rfl, rfl⟩) :
    t.Accounts b := by
  obtain ⟨-, -, -, -, hreleases, -, hslots⟩ := id h
  exact ⟨hs.books.same h, hs.flight.congr (fun _ _ hc => hc.congr ⟨hreleases, hslots⟩) k⟩

/-- A shorter reserve. -/
theorem State.Accounts.weaken {b c : Nat} {s : State} (hs : s.Accounts b) (h : c ≤ b) : s.Accounts c :=
  ⟨hs.books.congr (Nat.add_le_add_left h _), hs.flight⟩

/-- A response that fits the room left is written. -/
theorem State.Accounts.respond {b c : Nat} {s : State} (hs : s.Accounts b) {code tag : Byte} {r : Result}
    {data : List Byte} (h : data.length + 4 + c ≤ b) : (s.respond code tag r data).Accounts c :=
  ⟨hs.books.respond h, hs.flight.congr fun _ _ hc => hc.congr⟩

theorem State.Accounts.answer {b c : Nat} {s : State} (hs : s.Accounts b) {q : Request} {tag : Byte} {r : Result}
    {data : List Byte} (h : data.length + 4 + c ≤ b) : (s.answer q tag r data).Accounts c := hs.respond h

/-! ### Changes that leave the Request FIFO and the access alone -/

/-- From `s` to `t` the access and the Request FIFO stay, and `t` has `Q` when `s` has `P`. -/
structure State.Deals (P Q : State → Prop) (s t : State) : Prop where
  access   : t.host.access = s.host.access
  requests : t.host.requests = s.host.requests
  holds    : P s → Q t

namespace State.Deals

variable {P Q R : State → Prop} {s t u : State}

theorem refl (s : State) : s.Deals P P s := ⟨rfl, rfl, id⟩

theorem trans (h : s.Deals P Q t) (k : t.Deals Q R u) : s.Deals P R u :=
  ⟨k.access.trans h.access, k.requests.trans h.requests, k.holds ∘ h.holds⟩

/-- One of two changes, by a condition. -/
theorem cond {c : Prop} [Decidable c] (h : c → s.Deals P Q t) (k : ¬c → s.Deals P Q u) :
    s.Deals P Q (if c then t else u) := by
  split
  · exact h ‹_›
  · exact k ‹_›

/-- A change that asks for less. -/
theorem given (h : P s → R s) (k : s.Deals R Q t) : s.Deals P Q t := ⟨k.access, k.requests, k.holds ∘ h⟩

/-- A change of other blocks, or of the Engine's times, its reception and its counts. -/
theorem same {b : Nat} (h : t.host = s.host ∧ t.relays.length = s.relays.length ∧ t.enrol.admission = s.enrol.admission ∧
    t.releases = s.releases ∧ t.engine.pendingDisable = s.engine.pendingDisable ∧ t.table.slots = s.table.slots := by
      exact ⟨rfl, rfl, rfl, rfl, rfl, rfl⟩) (k : t.pins = s.pins ∧ t.engine.state = s.engine.state ∧
      t.engine.txn = s.engine.txn ∧ t.engine.dropDue = s.engine.dropDue := by exact ⟨rfl, rfl, rfl, rfl⟩) :
    s.Deals (State.Accounts b) (State.Accounts b) t := by
  obtain ⟨hhost, hrest⟩ := h
  exact ⟨by rw [hhost], by rw [hhost], fun hs => hs.same ⟨by rw [hhost], by rw [hhost], hrest⟩ k⟩

/-- A change that spares what the responses hang on. -/
theorem ofSpares {b : Nat} (h : s.Spares t) : s.Deals (State.Accounts b) (State.Accounts b) t :=
  ⟨by rw [h.host], by rw [h.host], fun hs => hs.spares h⟩

/-- The same for the books alone. -/
theorem ofSparesBooks {b : Nat} (h : s.Spares t) : s.Deals (State.Books b) (State.Books b) t :=
  ⟨by rw [h.host], by rw [h.host], fun hs => hs.spares h⟩

end State.Deals

/-! ### The outcome of a transaction at its owner (Table 3-5) -/

/-- A transaction that ends is answered out of its own reservation: it carries the queue head, and its reply is short. -/
def State.Concludes (t : Txn) (s : State) : Prop := s.Books 0 ∧ s.Carries t ∧ (t.reply.getD []).length ≤ 8

/-- The Release Queue without its head (R151). -/
theorem ReleasesFit.tail {e : Release} {rest : List Release} (h : ReleasesFit (e :: rest)) :
    ReleasesFit rest ∧ ∀ k ∈ rest, k.address ≠ e.address := by
  obtain ⟨hlength, hnodup⟩ := h
  rw [List.map_cons, List.nodup_cons] at hnodup
  obtain ⟨hnew, hrest⟩ := hnodup
  exact ⟨⟨Nat.le_of_succ_le hlength, hrest⟩, fun k hk ha => hnew (List.mem_map.mpr ⟨k, hk, ha⟩)⟩

/-- The lease of a lease entry at the head is the one that the RELEASE captured (R7, R152). -/
theorem releasingMatched_head {s : State} {t : Txn} {e : Release} {rest : List Release} {n : Slot} {tag : Byte}
    (hm : s.ReleasesMatch) (hc : s.Carries t) (hk : t.kind = .release) (hrs : s.releases = e :: rest)
    (hr : e.reason = .retire n tag) : s.releasingMatched t n = true := by
  obtain ⟨e', rest', hrs', -, ha, hcapture⟩ := hc hk
  obtain ⟨rfl, rfl⟩ := List.cons_eq_cons.mp (hrs.symm.trans hrs')
  obtain ⟨-, -, hx⟩ := hcapture n tag hr
  obtain ⟨x, hx'⟩ := (releasesMatch_iff.mp hm).1 e (hrs ▸ List.mem_cons_self) n tag hr
  obtain ⟨l, term, hl, hst, hlx, hla⟩ := releasingAs_eq_some.mp hx'
  simp [State.releasingMatched, State.matched, hx, hl, hst, hla, ha]

/-- The head has left the Release Queue, and with a lease entry the RELEASING lease of its slot. -/
theorem State.Books.headLeaves {b : Nat} {s u : State} {e : Release} {rest : List Release} (hs : s.Books b)
    (hrs : s.releases = e :: rest) {freed : Nat} (h : (s.setReleases rest).Pays (fun n => e.ends n) freed u) :
    u.QueuesFit ∧ u.ReleasesMatch ∧ u.deferredBytes + (if e.isLease then 11 else 0) = s.deferredBytes := by
  obtain ⟨hadmission, hreleases, hrelays⟩ := queuesFit_iff.mp hs.queues
  obtain ⟨hentries, hleases⟩ := releasesMatch_iff.mp hs.releases
  rw [hrs] at hreleases hentries hleases
  obtain ⟨hrest, hnew⟩ := hreleases.tail
  have queue : u.releases = rest := h.releases
  refine ⟨queuesFit_iff.mpr ⟨h.admission ▸ hadmission, queue ▸ hrest, h.relays ▸ hrelays⟩,
    releasesMatch_iff.mpr ⟨fun k hk n tag hr => ?_, fun n hn => ?_⟩, ?_⟩
  · rw [queue] at hk
    obtain ⟨x, hx⟩ := hentries k (List.mem_cons_of_mem e hk) n tag hr
    have apart : e.ends n = false := by
      cases hre : e.reason with
      | retire m etag =>
        rw [ends_retire hre, decide_eq_false_iff_not]
        rintro rfl
        obtain ⟨y, hy⟩ := hentries e List.mem_cons_self n etag hre
        exact hnew k hk (Prod.ext_iff.mp (Option.some.inj (hx.symm.trans hy))).2
      | _ => simp [Release.ends, hre]
    exact ⟨x, by rw [h.leases, apart]; exact hx⟩
  · rw [h.leases] at hn
    cases hend : e.ends n with
    | true => simp [hend] at hn
    | false =>
      have left := hleases n (by simpa [hend] using hn)
      rwa [List.any_cons, hend, Bool.false_or, ← queue] at left
  · simp only [State.deferredBytes, queue, h.relays, h.engine, hrs, State.setReleases_relays, State.setReleases_engine,
      List.countP_cons]
    cases e.isLease
    · simp
    · simp
      omega

/-- What pays keeps the pins and the Engine. -/
theorem State.Pays.leavesTrunk {gone : Slot → Bool} {freed : Nat} {s t : State} (h : s.Pays gone freed t) :
    s.LeavesTrunk t := ⟨h.pins, h.engine⟩

theorem State.Spares.leavesTrunk {s t : State} (h : s.Spares t) : s.LeavesTrunk t := ⟨h.pins, h.engine⟩

theorem endReleasing_host (n : Slot) (full : Bool) (s : State) : (s.endReleasing n full).host = s.host := by
  unfold State.endReleasing
  split
  · split <;> rfl
  · rfl

theorem completeRelease_port (t : Txn) (o : AttemptOutcome) (n : Slot) (tag : Byte) (a : Address) (s : State) :
    (s.completeRelease t o n tag a).host.access = s.host.access ∧
      (s.completeRelease t o n tag a).host.requests = s.host.requests := by
  have port : (if s.releasingMatched t n then s.endReleasing n (!decide (o = .good)) else s).host = s.host := by
    split
    · exact endReleasing_host n _ s
    · rfl
  have haccess := congrArg HostPort.access port
  have hrequests := congrArg HostPort.requests port
  exact ⟨haccess, hrequests⟩

namespace State.Deals

/-- A lease entry frees its lease and answers its graceful RETIRE; an address-only entry leaves without effect (R152, R153). -/
theorem releaseDone {t : Txn} (hk : t.kind = .release) (o : AttemptOutcome) (s : State) :
    s.Deals (State.Concludes t) (State.Books 0) (s.releaseDone t o) := by
  unfold State.releaseDone
  split
  · exact ⟨rfl, rfl, fun h => h.1⟩
  · next e rest hrs =>
    have passes (hlease : e.isLease = false) :
        s.Deals (State.Concludes t) (State.Books 0) (s.setReleases rest) := by
      refine ⟨rfl, rfl, fun ⟨hs, _, _⟩ => ?_⟩
      have left : (s.setReleases rest).Pays (fun n => e.ends n) 0 (s.setReleases rest) :=
        { State.Pays.refl _ with leases := fun n => by rw [ends_eq_false hlease]; rfl }
      obtain ⟨hq, hm, hd⟩ := hs.headLeaves hrs left
      obtain ⟨hreserved, hroom, -, -⟩ := hs
      exact ⟨by rw [hlease] at hd; exact hreserved.trans hd.symm, hroom, hq, hm⟩
    split
    · next n tag hr =>
      have ended := State.Pays.endReleasing n (!decide (o = .good)) (s.setReleases rest)
      have slots : (fun m => decide (m = n)) = fun m => e.ends m := funext fun m => (ends_retire hr m).symm
      obtain ⟨haccess, hrequests⟩ := completeRelease_port t o n tag e.address (s.setReleases rest)
      refine ⟨haccess, hrequests, fun ⟨hs, hc, _⟩ => ?_⟩
      obtain ⟨hq, hm, hd⟩ := hs.headLeaves hrs (slots ▸ ended)
      rw [isLease_iff.mpr ⟨n, tag, hr⟩] at hd
      have matched : s.releasingMatched t n = true := releasingMatched_head hs.releases hc hk hrs hr
      unfold State.completeRelease
      dsimp only
      rw [if_pos (show (s.setReleases rest).releasingMatched t n = true from matched)]
      exact hs.settle (endReleasing_host n _ _) hd (Nat.le_of_ble_eq_true rfl) hq hm
    · next hr => exact passes (by simp [Release.isLease, hr])
    · next hr => exact passes (by simp [Release.isLease, hr])
    · next hr => exact passes (by simp [Release.isLease, hr])

/-- The head's relay is answered with its reply (R159). -/
theorem relayDone (t : Txn) (o : AttemptOutcome) (s : State) :
    s.Deals (State.Concludes t) (State.Books 0) (s.relayDone t o) := by
  unfold State.relayDone
  split
  · exact ⟨rfl, rfl, fun h => h.1⟩
  · next e rest hrs =>
    refine ⟨rfl, rfl, fun ⟨hs, _, hreply⟩ => ?_⟩
    obtain ⟨hadmission, hreleases, hrelays⟩ := queuesFit_iff.mp hs.queues
    have short : (relayData t o).length + 4 ≤ Request.relay.reservation := by
      have bytes : (if o = .good then t.reply.getD [] else []).length ≤ 8 := by
        split
        · exact hreply
        · exact Nat.zero_le _
      simpa [relayData, halfBytes, Request.reservation, Request.maxResponse] using bytes
    refine hs.settle rfl ?_ short (queuesFit_iff.mpr ⟨hadmission, hreleases, ?_⟩) hs.releases
    · have owed := deferredBytes_setRelays rest s
      rw [hrs, List.length_cons] at owed
      show _ + 18 = _
      omega
    · rw [hrs] at hrelays
      exact Nat.le_of_succ_le hrelays

/-- The outcome of a transaction at its owner. -/
theorem txnDone (t : Txn) (o : AttemptOutcome) (s : State) :
    s.Deals (State.Concludes t) (State.Books 0) (s.txnDone t o) := by
  have spared {u : State} (h : s.Spares u) : s.Deals (State.Concludes t) (State.Books 0) u :=
    (ofSparesBooks h).given fun hs => hs.1
  unfold State.txnDone
  split
  · exact spared (.pollDone t o s)
  · exact spared (.refl s)
  · exact spared (.offerDone t o s)
  · next hk => exact releaseDone hk o s
  · exact spared (.probeDone t o s)
  · exact relayDone t o s

end State.Deals
end Sys2Proof.Machine

/-! ## The Engine's account (3.1 to 3.5)

Each operation of the Trunk Engine keeps the account, and where it ends a transaction the outcome is paid out of that
transaction's own reservation. -/
namespace Sys2Proof.Machine
set_option Elab.async false

/-- The Engine may enter OFF or HELD: nothing is in flight, and the part is out of reset. -/
structure State.Leaving (b : Nat) (s : State) : Prop where
  books   : s.Books b
  txn     : s.engine.txn = none
  drop    : s.engine.dropDue = true → s.pins.fault = true
  running : s.pins.rstLow = false

/-- A rising of TRUNK_FAULT finds the Engine with what it has in flight. -/
structure State.Faulted (s : State) : Prop where
  books   : s.Books 0
  engine  : s.EngineSound
  carries : ∀ t ∈ s.engine.txn, s.Carries t
  reply   : ∀ t ∈ s.engine.txn, (t.reply.getD []).length ≤ 8
  fault   : s.pins.fault = true
  running : s.pins.rstLow = false

/-- OFF or HELD with nothing in flight. -/
theorem State.Leaving.accounts {b c : Nat} {s t : State} (hs : s.Leaving c) (hb : t.Books b)
    (ht : t.engine.state = .off ∨ t.engine.state = .held) (h : t.pins = s.pins ∧ t.engine.txn = s.engine.txn ∧
      t.engine.dropDue = s.engine.dropDue := by exact ⟨rfl, rfl, rfl⟩) : t.Accounts b := by
  obtain ⟨-, htxn, hdrop, hrunning⟩ := hs
  obtain ⟨hpins, htxn', hdue⟩ := h
  refine ⟨hb, .free (htxn'.trans htxn) (EngineState.not_busy.mpr (by tauto)) (faultSound_aside ht ?_ ?_)⟩
  · rwa [hpins]
  · rwa [hpins, hdue]

/-- The payload of a complete frame that is judged GOOD is at most eight bytes (R37, R40). -/
theorem framePayload_length {chars : List RxChar} {short : Bool} {e : Expected}
    (hc : short = true ∨ receptionComplete chars = true) (hj : judgeFrame chars short e = none) :
    (framePayload chars).length ≤ 8 := by
  have checks : badLength chars = false ∧ short = false := by
    unfold judgeFrame at hj
    split at hj
    · cases hj
    · split at hj
      · cases hj
      · split at hj
        · cases hj
        · next hlength =>
          split at hj
          · cases hj
          · next hshort => exact ⟨by simpa using hlength, by simpa using hshort⟩
  obtain ⟨hlength, hshort⟩ := checks
  have complete := hc.resolve_left (by simp [hshort])
  unfold receptionComplete at complete
  unfold badLength at hlength
  cases hn : lengthNibble chars with
  | none => simp [hn] at complete
  | some len =>
    simp only [hn, decide_eq_false_iff_not, Nat.not_le] at complete hlength
    rw [if_pos (Nat.le_of_lt_succ hlength), beq_iff_eq] at complete
    simp only [framePayload, List.length_map, List.length_dropLast, List.length_drop]
    omega

namespace State.Deals

/-! ### Leaving the trunk (3.4, 3.5) -/

/-- The Engine leaves the trunk with a pending DISABLE answered (R61). -/
theorem enterOff {b : Nat} (s : State) : s.Deals (State.Leaving b) (State.Accounts b) s.enterOff := by
  unfold State.enterOff State.answerDisable
  split
  · exact ⟨rfl, rfl, fun hs => hs.accounts hs.books.same (.inl rfl)⟩
  · next tag hp =>
    refine ⟨rfl, rfl, fun hs => hs.accounts (hs.books.settle rfl ?_ (Nat.le_of_ble_eq_true rfl) hs.books.queues
      hs.books.releases) (.inl rfl)⟩
    have pending : s.engine.pendingDisable = some tag := hp
    rw [State.deferredBytes, State.deferredBytes, pending]
    rfl

theorem leaveTrunk (s : State) : s.Deals (State.Leaving 0) (State.Accounts 0) s.leaveTrunk := by
  unfold State.leaveTrunk
  split
  · exact enterOff s
  · exact ⟨rfl, rfl, fun hs => hs.accounts hs.books.same (.inr rfl)⟩

/-- A rising of TRUNK_FAULT ends the transaction in flight LINE_FAULT at its owner (R66). -/
theorem abortForFault (s : State) : s.Deals State.Faulted (State.Accounts 0) s.abortForFault := by
  unfold State.abortForFault
  split
  · next hoff =>
    refine ⟨rfl, rfl, fun hs => ⟨hs.books, hs.engine, hs.carries, hs.reply, ?_⟩⟩
    exact faultSound_aside (.inl hoff) hs.running fun _ => hs.fault
  · split
    · next ht => exact (leaveTrunk s).given fun hs => ⟨hs.books, ht, fun _ => hs.fault, hs.running⟩
    · next t ht =>
      have done := txnDone { t with lastOutcome := some .lineFault } .lineFault (s.setTxn none)
      obtain ⟨hpins, hengine⟩ := State.LeavesTrunk.txnDone { t with lastOutcome := some .lineFault } .lineFault (s.setTxn none)
      refine trans (Q := State.Leaving 0) ⟨done.access, done.requests, fun hs => ⟨done.holds ?_, ?_, fun _ => ?_, ?_⟩⟩
        (leaveTrunk _)
      · exact ⟨hs.books.same, (hs.carries t ht).congr, hs.reply t ht⟩
      · rw [hengine]
        rfl
      · rw [hpins]
        exact hs.fault
      · rw [hpins]
        exact hs.running

/-! ### Ends of attempts (R54) -/

/-- An attempt's end is counted, and the outcome goes to the owner or the transaction goes on. -/
theorem endAttempt (ended : Nat) (o : AttemptOutcome) {payload : Option (List Byte)} (hp : ∀ p ∈ payload, p.length ≤ 8)
    (s : State) : s.Deals (State.Accounts 0) (State.Accounts 0) (s.endAttempt ended o payload) := by
  cases ht : s.engine.txn with
  | none => simpa only [State.endAttempt, ht] using refl s
  | some t =>
    have counted := State.Spares.countTxnAttempt (t.ended o payload) o s
    have guard (hs : s.Accounts 0) (x : Option Txn) :
        (((s.countTxnAttempt (t.ended o payload) o).enterGuard ended).setTxn x).Books 0 := (hs.books.spares counted).same
    have carries (hs : s.Accounts 0) (x : Option Txn) :
        (((s.countTxnAttempt (t.ended o payload) o).enterGuard ended).setTxn x).Carries (t.ended o payload) :=
      ((hs.flight.carries t ht).spares hs.books.releases counted).congr
    have reply (hs : s.Accounts 0) : ((t.ended o payload).reply.getD []).length ≤ 8 := by
      cases payload with
      | none => exact hs.flight.reply t ht
      | some p => exact hp p rfl
    have live {u : State} (hs : s.Accounts 0) (hu : u.pins = (s.countTxnAttempt (t.ended o payload) o).pins)
        (hd : u.engine.dropDue = (s.countTxnAttempt (t.ended o payload) o).engine.dropDue) : u.FaultSound := by
      obtain ⟨hr, hf, hdue⟩ := hs.flight.live ht
      rw [counted.pins] at hu
      rw [counted.engine] at hd
      exact State.Live.faultSound ⟨hu ▸ hr, hu ▸ hf, hd.trans hdue⟩
    by_cases h : o = .good ∨ t.maxAttempts ≤ t.attempt
    · rw [endAttempt_last ht h]
      have done := txnDone (t.ended o payload) o
        (((s.countTxnAttempt (t.ended o payload) o).enterGuard ended).setTxn none)
      obtain ⟨hpins, hengine⟩ := State.LeavesTrunk.txnDone (t.ended o payload) o
        (((s.countTxnAttempt (t.ended o payload) o).enterGuard ended).setTxn none)
      refine ⟨done.access.trans (congrArg HostPort.access counted.host),
        done.requests.trans (congrArg HostPort.requests counted.host), fun hs => ⟨?_, ?_⟩⟩
      · exact done.holds ⟨guard hs none, carries hs none, reply hs⟩
      · exact .free (by rw [hengine]; rfl) (by rw [hengine]; exact EngineState.not_busy.mpr (by simp [State.setTxn]))
          (live hs hpins (by rw [hengine]; rfl))
    · obtain ⟨ho, hmore⟩ := not_or.mp h
      rw [endAttempt_goesOn ht ho (Nat.not_le.mp hmore)]
      refine trans (Q := State.Accounts 0) (t := ((s.countTxnAttempt (t.ended o payload) o).enterGuard ended).setTxn
        (some (t.ended o payload))) ⟨congrArg HostPort.access counted.host,
        congrArg HostPort.requests counted.host, fun hs => ⟨guard hs _, ?_, ?_, ?_, ?_⟩⟩
        (ofSpares (State.Spares.countFailedOffer (t.ended o payload) _))
      · exact engineSound_between rfl rfl (hs.flight.engine.2.2 t ht).1 (Nat.not_le.mp hmore)
      · rintro x ⟨⟩
        exact carries hs _
      · rintro x ⟨⟩
        exact reply hs
      · exact live hs rfl rfl

/-- The listen ends with nothing in flight, and its results join the table. -/
theorem endListen (ended : Nat) {s : State} (hl : s.inListen = true) :
    s.Deals (State.Accounts 0) (State.Accounts 0) (s.endListen ended) := by
  refine trans (Q := State.Accounts 0) (t := { (s.enterGuard ended).setTxn none with
      engine := { ((s.enterGuard ended).setTxn none).engine with
        collisions := s.engine.collisions + BitVec.ofNat 16 (collidedCount s.engine.reception.results) } })
    ⟨rfl, rfl, fun hs => ⟨hs.books.same, ?_⟩⟩ (ofSpares (State.Spares.evaluateSolicit _ _))
  cases ht : s.engine.txn with
  | none => simp [State.inListen, ht] at hl
  | some t =>
    refine .free rfl (EngineState.not_busy.mpr (by simp [State.setTxn])) (State.Live.faultSound ?_)
    exact hs.flight.live ht

/-! ### Reception (2.1 to 2.4) -/

/-- From one busy state to another the transaction stays. -/
theorem busy {b : Nat} {s t : State} (hs : s.engine.state.Busy) (ht : t.engine.state.Busy) (h : t.host = s.host ∧
    t.relays.length = s.relays.length ∧ t.enrol.admission = s.enrol.admission ∧ t.releases = s.releases ∧
    t.engine.pendingDisable = s.engine.pendingDisable ∧ t.table.slots = s.table.slots := by
      exact ⟨rfl, rfl, rfl, rfl, rfl, rfl⟩) (k : t.pins = s.pins ∧ t.engine.txn = s.engine.txn ∧
      t.engine.dropDue = s.engine.dropDue := by exact ⟨rfl, rfl, rfl⟩) :
    s.Deals (State.Accounts b) (State.Accounts b) t := by
  obtain ⟨hhost, hrelays, hadmission, hreleases, hdisable, hslots⟩ := h
  obtain ⟨hpins, htxn, hdrop⟩ := k
  refine ⟨by rw [hhost], by rw [hhost], fun ⟨hb, hf⟩ => ⟨?_, ?_, ?_, by rw [htxn]; exact hf.reply, ?_⟩⟩
  · exact hb.same ⟨by rw [hhost], by rw [hhost], hrelays, hadmission, hreleases, hdisable, hslots⟩
  · obtain ⟨x, hx, h1, hmax⟩ := hf.engine.txn_busy hs
    exact engineSound_busy (htxn.trans hx) ht h1 hmax
  · rw [htxn]
    exact fun x hx => (hf.carries x hx).congr ⟨hreleases, hslots⟩
  · obtain ⟨x, hx, -, -⟩ := hf.engine.txn_busy hs
    obtain ⟨hr, hfault, hdue⟩ := hf.live hx
    exact State.Live.faultSound ⟨hpins ▸ hr, hpins ▸ hfault, hdrop.trans hdue⟩

theorem keepFrame (short : Bool) (s : State) : s.Deals (State.Accounts 0) (State.Accounts 0) (s.keepFrame short) := same

theorem endListenFrame (short : Bool) (now : Nat) {s : State} (hr : s.engine.state = .receive) (hl : s.inListen = true) :
    s.Deals (State.Accounts 0) (State.Accounts 0) (s.endListenFrame short now) :=
  cond (fun _ => (keepFrame short s).trans (endListen now hl)) fun _ =>
    (keepFrame short s).trans (busy (.inr (.inr hr)) (.inr (.inl rfl)))

/-- A reply that was cut short is not GOOD, so a payload kept is that of a complete frame. -/
theorem endReply {short : Bool} (ended : Nat) {s : State}
    (hc : short = true ∨ receptionComplete s.engine.reception.chars = true) :
    s.Deals (State.Accounts 0) (State.Accounts 0) (s.endReply short ended) := by
  unfold State.endReply
  split
  · exact refl s
  · split
    · exact refl s
    · split
      · next hj =>
        refine endAttempt _ _ ?_ s
        rintro p ⟨⟩
        exact framePayload_length hc hj
      · exact endAttempt (payload := none) _ _ nofun s

theorem idleTimeout (s : State) : s.Deals (State.Accounts 0) (State.Accounts 0) s.idleTimeout :=
  cond (fun h => cond (fun hl => trans (t := s.passTo _) same (endListenFrame _ _ h.1 hl))
    fun _ => trans (t := s.passTo _) same (endReply _ (.inl rfl))) fun _ => refl s

theorem windowTimeout (s : State) : s.Deals (State.Accounts 0) (State.Accounts 0) s.windowTimeout :=
  cond (fun _ => trans (t := s.passTo _) same (endAttempt (payload := none) _ _ nofun _)) fun _ => refl s

theorem listenTimeout (s : State) : s.Deals (State.Accounts 0) (State.Accounts 0) s.listenTimeout :=
  cond (fun h => trans (t := s.passTo _) same (endListen _ h.2)) fun _ => refl s

theorem catchUp (t : Nat) (s : State) : s.Deals (State.Accounts 0) (State.Accounts 0) (s.catchUp t) := by
  have idle : s.Deals (State.Accounts 0) (State.Accounts 0)
      (if s.engine.reception.idleFrom + s.params.charTime < t then s.idleTimeout else s) :=
    cond (fun _ => idleTimeout s) fun _ => refl s
  exact idle.trans (cond (fun _ => cond (fun _ => listenTimeout _) fun _ => refl _)
    fun _ => cond (fun _ => windowTimeout _) fun _ => refl _)

theorem beginCharacter (t : Nat) (s : State) : s.Deals (State.Accounts 0) (State.Accounts 0) (s.beginCharacter t) := by
  cases h : s.engine.state with
  | listen =>
    rw [beginCharacter_listen h]
    exact busy (.inr (.inl h)) (.inr (.inr rfl))
  | receive =>
    rw [beginCharacter_receive h]
    exact same
  | _ =>
    rw [beginCharacter_deaf (listening_eq_false.mpr (by simp [h]))]
    exact refl s

theorem startCharacter (t : Nat) (s : State) : s.Deals (State.Accounts 0) (State.Accounts 0) (s.startCharacter t) :=
  cond (fun _ => (catchUp _ s).trans (beginCharacter _ _)) fun _ => refl s

/-- The record of the transaction in flight is written with the same capture, attempts and reply. -/
theorem reviseTxn {s : State} {x y : Txn} (hx : s.engine.txn = some x)
    (h : y.kind = x.kind ∧ y.slot = x.slot ∧ y.tag = x.tag ∧ y.identity = x.identity ∧ y.address = x.address := by
      exact ⟨rfl, rfl, rfl, rfl, rfl⟩)
    (k : y.attempt = x.attempt ∧ y.maxAttempts = x.maxAttempts ∧ y.reply = x.reply := by exact ⟨rfl, rfl, rfl⟩) :
    s.Deals (State.Accounts 0) (State.Accounts 0) (s.setTxn (some y)) := by
  obtain ⟨hattempt, hmax, hreply⟩ := k
  refine ⟨rfl, rfl, fun ⟨hb, hf⟩ => ⟨hb.same, ?_, ?_, ?_, hf.fault⟩⟩
  · obtain ⟨hstates, hflight, hattempts⟩ := hf.engine
    refine ⟨fun _ => hstates (by rw [hx]; rfl), fun _ => rfl, ?_⟩
    rintro t ⟨⟩
    rw [hattempt, hmax]
    exact hattempts x hx
  · rintro t ⟨⟩
    exact (hf.carries x hx).congr ⟨rfl, rfl⟩ h
  · rintro t ⟨⟩
    rw [hreply]
    exact hf.reply x hx

theorem gatherReply (c : RxChar) (t : Nat) (s : State) :
    s.Deals (State.Accounts 0) (State.Accounts 0) (s.gatherReply c t) := by
  have marked (r : Reception) (k : Nat) : s.Deals (State.Accounts 0) (State.Accounts 0)
      (match (s.setReception r).engine.txn with
        | some x => (s.setReception r).setTxn (some { x with errorMap := markError x.errorMap k c })
        | none => s.setReception r) := by
    split
    · next x hx => exact trans (t := s.setReception r) same (reviseTxn hx)
    · exact same
  exact cond (fun _ => endReply _ (.inl rfl)) fun _ =>
    cond (fun hc => (marked _ _).trans (endReply _ (.inr hc))) fun _ => marked _ _

theorem gatherListen (c : RxChar) (t : Nat) {s : State} (hr : s.engine.state = .receive) (hl : s.inListen = true) :
    s.Deals (State.Accounts 0) (State.Accounts 0) (s.gatherListen c t) :=
  cond (fun _ => cond (fun _ => (keepFrame true s).trans (endListen t hl)) fun _ => same) fun _ =>
    cond (fun _ => trans (t := s.setReception _) same (endListenFrame false _ hr hl)) fun _ => same

theorem receiveCharacter (c : RxChar) (s : State) :
    s.Deals (State.Accounts 0) (State.Accounts 0) (s.receiveCharacter c) := by
  have begun : s.Deals (State.Accounts 0) (State.Accounts 0)
      (if s.engine.reception.charBegan = none then s.startCharacter s.presumedBegin else s) :=
    cond (fun _ => startCharacter _ s) fun _ => refl s
  unfold State.receiveCharacter
  dsimp only
  generalize (if s.engine.reception.charBegan = none then s.startCharacter s.presumedBegin else s) = u at begun ⊢
  split
  · next t hr _ =>
    exact begun.trans (cond (fun hl => trans (t := u.endCharacter t) same (gatherListen c t hr hl))
      fun _ => trans (t := u.endCharacter t) same (gatherReply c t _))
  · exact begun

end State.Deals

/-! ### Grants (3.3) -/

/-- The account at a grant: the Engine is IDLE, and `queue` are the relays that wait. -/
structure State.Granting (queue : List Relay) (s : State) : Prop where
  accounts : s.Accounts 0
  idle     : s.engine.state = .idle
  relays   : s.relays = queue

/-- Out of IDLE the trunk can be used. -/
theorem State.Granting.live {queue : List Relay} {s : State} (hs : s.Granting queue) : s.Live :=
  hs.accounts.flight.fault.live (by simp [hs.idle]) (by simp [hs.idle])

namespace State.Deals

variable {queue : List Relay} {s : State}

/-- A transaction begins with its attempt within its maximum, with no reply, and carries the head when it is a RELEASE. -/
theorem beginTxn {t : Txn} (h1 : 1 ≤ t.attempt) (hmax : t.attempt ≤ t.maxAttempts) (hc : s.Carries t) (burst : Nat)
    (hr : t.reply = none := by rfl) :
    s.Deals (fun u => u.Books 0 ∧ u.Live) (State.Accounts 0) (s.beginTxn t burst) := by
  refine ⟨rfl, rfl, fun ⟨hb, hl⟩ => ⟨hb.same, engineSound_busy rfl (.inl rfl) h1 hmax, ?_, ?_, ?_⟩⟩
  · rintro x ⟨⟩
    exact hc.congr
  · rintro x ⟨⟩
    simp [hr]
  · exact State.Live.faultSound (s := s.beginTxn t burst) hl

/-- A transaction other than a RELEASE begins, with a mark at its source. -/
theorem beginOther {u : State} {t : Txn} (hk : t.kind ≠ .release) (h1 : 1 ≤ t.attempt) (hmax : t.attempt ≤ t.maxAttempts)
    (burst : Nat) (hr : t.reply = none := by rfl) (h : u.host = s.host ∧ u.relays.length = s.relays.length ∧
      u.enrol.admission = s.enrol.admission ∧ u.releases = s.releases ∧ u.engine = s.engine ∧
      u.table.slots = s.table.slots ∧ u.pins = s.pins := by exact ⟨rfl, rfl, rfl, rfl, rfl, rfl, rfl⟩) :
    s.Deals (State.Granting queue) (State.Accounts 0) (u.beginTxn t burst) := by
  obtain ⟨hhost, hrelays, hadmission, hreleases, hengine, hslots, hpins⟩ := h
  have begun := beginTxn (s := u) h1 hmax (fun h => absurd h hk) burst hr
  refine ⟨begun.access.trans (by rw [hhost]), begun.requests.trans (by rw [hhost]), fun hs => begun.holds ⟨?_, ?_⟩⟩
  · exact hs.accounts.books.same
      ⟨by rw [hhost], by rw [hhost], hrelays, hadmission, hreleases, by rw [hengine], hslots⟩
  · simpa only [State.Live, hpins, hengine] using hs.live

theorem grantOffer (o : Offer) (s : State) : s.Deals (State.Granting queue) (State.Accounts 0) (s.grantOffer o) := by
  unfold State.grantOffer
  split
  · exact (refl s).given fun hs => hs.accounts
  · exact beginOther (by simp [newTxn]) (by simp only [newTxn]; omega) (Nat.min_le_right _ _) _

/-- The head is marked as its RELEASE begins (R151). -/
theorem grantRelease {e : Release} {rest : List Release} (hrs : s.releases = e :: rest) :
    s.Deals (State.Granting queue) (State.Accounts 0) (s.grantRelease e rest) := by
  have carries : (s.setReleases ({ e with inFlight := true } :: rest)).Carries
      (newTxn .release (s.releaseCapture e).1 (s.releaseCapture e).2.1 (.station e.address) (s.releaseCapture e).2.2
        (releaseFrame e.address) (some ⟨.station e.address, .released, none⟩) 1 (1 + s.params.releaseRetries)) := by
    intro _
    refine ⟨{ e with inFlight := true }, rest, rfl, rfl, rfl, fun n tag hr => ?_⟩
    have captured : s.releaseCapture e = (some n, (s.lease n).map (fun l => l.identity), some tag) := by
      simp only [State.releaseCapture, show e.reason = .retire n tag from hr]
    rw [captured]
    exact ⟨rfl, rfl, rfl⟩
  have begun := beginTxn (Nat.le_refl 1) (Nat.le_add_right 1 _) carries 0
  refine ⟨begun.access, begun.requests, fun hs => begun.holds ⟨?_, hs.live⟩⟩
  obtain ⟨hreserved, hroom, hq, hm⟩ := hs.accounts.books
  obtain ⟨hadmission, hreleases, hrelays⟩ := queuesFit_iff.mp hq
  obtain ⟨hentries, hleases⟩ := releasesMatch_iff.mp hm
  rw [hrs] at hreleases hentries hleases
  refine ⟨?_, hroom, queuesFit_iff.mpr ⟨hadmission, hreleases, hrelays⟩, releasesMatch_iff.mpr ⟨?_, hleases⟩⟩
  · rw [State.deferredBytes, hrs] at hreserved
    exact hreserved
  · rintro k hk
    rcases List.mem_cons.mp hk with rfl | hk
    · exact hentries e List.mem_cons_self
    · exact hentries k (List.mem_cons_of_mem e hk)

theorem grantRelay {e : Relay} {rest : List Relay} (hrs : s.relays = e :: rest) (n : Slot) (l : Lease) :
    s.Deals (State.Granting queue) (State.Accounts 0) (s.grantRelay e rest n l) := by
  refine beginOther (by simp [newTxn]) (Nat.le_refl 1) ?_ _ rfl ⟨rfl, by simp [hrs], rfl, rfl, rfl, rfl, rfl⟩
  dsimp only [newTxn]
  split
  · exact Nat.le_add_right 1 _
  · exact Nat.le_refl 1

theorem grantBroadcast {e : Relay} {rest : List Relay} (hrs : s.relays = e :: rest) :
    s.Deals (State.Granting queue) (State.Accounts 0) (s.grantBroadcast e rest) :=
  beginOther (by simp [newTxn]) (Nat.le_refl 1) (Nat.le_refl 1) _ rfl ⟨rfl, by simp [hrs], rfl, rfl, rfl, rfl, rfl⟩

theorem grantPoll (n : Slot) (s : State) : s.Deals (State.Granting queue) (State.Accounts 0) (s.grantPoll n) := by
  unfold State.grantPoll
  split
  · exact (refl s).given fun hs => hs.accounts
  · exact beginOther (by simp [newTxn]) (Nat.le_refl 1) (Nat.le_add_right 1 _) _

theorem grantLow (s : State) : s.Deals (State.Granting queue) (State.Accounts 0) s.grantLow := by
  unfold State.grantLow
  split
  · exact beginOther (by simp [newTxn]) (Nat.le_refl 1) (Nat.le_refl 1) _
  · split
    · exact grantPoll _ s
    · exact cond (fun _ => beginOther (by simp [newTxn]) (Nat.le_refl 1) (Nat.le_refl 1) _)
        fun _ => (refl s).given fun hs => hs.accounts

/-- A relay that is no longer bound is answered out of its reservation (R157). -/
theorem refuseRelay (e : Relay) (rest : List Relay) (n : Slot) (s : State) :
    s.Deals (State.Granting (e :: rest)) (State.Granting rest) (s.refuseRelay e rest n) := by
  refine ⟨rfl, rfl, fun ⟨⟨hb, hf⟩, hi, hrs⟩ => ⟨⟨?_, hf.congr fun _ _ hc => hc.congr⟩, hi, rfl⟩⟩
  obtain ⟨hadmission, hreleases, hrelays⟩ := queuesFit_iff.mp hb.queues
  have owed := deferredBytes_setRelays rest s
  rw [hrs, List.length_cons] at owed hrelays
  refine hb.settle rfl ?_ (Nat.le_of_ble_eq_true rfl) (queuesFit_iff.mpr ⟨hadmission, hreleases,
    Nat.le_of_succ_le hrelays⟩) hb.releases
  show _ + 18 = _
  omega

theorem arbitrateRelays (queue : List Relay) (s : State) :
    s.Deals (State.Granting queue) (State.Accounts 0) (s.arbitrateRelays queue) := by
  induction queue generalizing s with
  | nil =>
    unfold State.arbitrateRelays
    split
    · exact grantPoll _ s
    · exact grantLow s
  | cons e rest ih =>
    have refused (n : Slot) := (refuseRelay e rest n s).trans (ih _)
    unfold State.arbitrateRelays
    split
    · exact grantPoll _ s
    · split
      · exact ⟨rfl, rfl, fun hs => (grantBroadcast hs.relays).holds hs⟩
      · split
        · next l _ => exact cond (fun _ => ⟨rfl, rfl, fun hs => (grantRelay hs.relays _ l).holds hs⟩) fun _ => refused _
        · exact refused _

theorem arbitrate (s : State) : s.Deals (State.Granting s.relays) (State.Accounts 0) s.arbitrate := by
  unfold State.arbitrate
  split
  · exact grantOffer _ s
  · next hrs => exact grantRelease hrs
  · exact arbitrateRelays _ s

end State.Deals
end Sys2Proof.Machine

/-! ## Requests against the account (9.4, 9.5)

A request is taken with its maximum response size free; its immediate response uses no more, and a deferred one keeps it
reserved. -/
namespace Sys2Proof.Machine
set_option Elab.async false

/-- A request is handed to its owner with `b` bytes free for its response. -/
structure State.Ready (b : Nat) (s : State) : Prop where
  accounts : s.Accounts b
  running  : s.pins.rstLow = false
  map      : s.MapMatches

/-- An event finds the part out of reset. -/
structure State.Running (s : State) : Prop where
  accounts : s.Accounts 0
  running  : s.pins.rstLow = false

/-! ### The fault drop, the tick and RESET_TRUNK (3.4, 3.5, 8.1) -/

/-- A fault drop answers each graceful RETIRE out of its reservation (R70). -/
theorem takeFaultDrop_deals {b : Nat} (s : State) :
    s.Deals (State.Books b) (State.Books b) s.takeFaultDrop ∧ s.LeavesTrunk s.takeFaultDrop := by
  have dropped := State.Spares.foldl State.Spares.dropLease allSlots s
  unfold State.takeFaultDrop
  dsimp only
  generalize allSlots.foldl State.dropLease s = t at dropped ⊢
  have emptied := dropped.andSame (u := { t with enrol := { t.enrol with offers := [] } })
  generalize ({ t with enrol := { t.enrol with offers := [] } } : State) = u at emptied ⊢
  obtain ⟨es, hes, hlease, -⟩ := emptied.releases
  have paid := State.Pays.settleReleases false true .lineFault s.releases (u.setReleases [])
  have settled {b : Nat} (hs : s.Books b) :
      ((u.setReleases []).settleReleases false true .lineFault s.releases).Books b := by
    refine (hs.spares emptied).settleReleases ?_ (fun n => ?_) _ _ _
    · have added : es.countP Release.isLease = 0 := List.countP_eq_zero.mpr (by simpa using hlease)
      rw [hes, List.countP_append, added, Nat.add_zero]
    · have silent : es.any (Release.ends n) = false :=
        List.any_eq_false.mpr fun e he => by simp [ends_eq_false (hlease e he)]
      rw [hes, List.any_append, silent, Bool.or_false]
  generalize (u.setReleases []).settleReleases false true .lineFault s.releases = v at paid settled ⊢
  have walked : v.Spares (v.raise .faultDrop).pollSettle := (State.Spares.pollSettle _).afterSame
  refine ⟨⟨?_, ?_, fun hs => (settled hs).spares walked⟩, ?_⟩
  · exact (congrArg HostPort.access walked.host).trans (paid.access.trans (congrArg HostPort.access emptied.host))
  · exact (congrArg HostPort.requests walked.host).trans (paid.requests.trans (congrArg HostPort.requests emptied.host))
  · exact (emptied.leavesTrunk.trans (t := u.setReleases []) ⟨rfl, rfl⟩).trans
      (paid.leavesTrunk.trans walked.leavesTrunk)

theorem dropEvent_pins (s : State) : s.dropEvent.pins = s.pins := by
  obtain ⟨-, hpins, -⟩ := takeFaultDrop_deals (b := 0) { s with engine := { s.engine with dropDue := false } }
  unfold State.dropEvent
  split
  · exact hpins
  · rfl

namespace State.Deals

/-- A fault drop is due while TRUNK_FAULT is high alone, so nothing is in flight (R68). -/
theorem dropEvent {b : Nat} (s : State) : s.Deals (State.Accounts b) (State.Accounts b) s.dropEvent := by
  cases hd : s.engine.dropDue with
  | false =>
    rw [dropEvent_notDue hd]
    exact refl s
  | true =>
    obtain ⟨taken, hpins, hengine⟩ := takeFaultDrop_deals (b := b) { s with engine := { s.engine with dropDue := false } }
    rw [dropEvent_due hd]
    refine ⟨taken.access, taken.requests, fun ⟨hb, hf⟩ => ⟨taken.holds hb.same, ?_⟩⟩
    have aside := hf.fault.1 (hf.fault.2.1 hd)
    have idle := hf.engine.txn_none (EngineState.not_busy.mpr (by tauto)) (by rcases aside with e | e <;> simp [e])
    refine .free (by rw [hengine]; exact idle) (by rw [hengine]; exact EngineState.not_busy.mpr (by tauto)) ?_
    simp only [State.FaultSound, hpins, hengine]
    exact ⟨fun _ => aside, nofun, fun h => ⟨(hf.fault.2.2 h).1, trivial⟩⟩

/-- A tick makes a fault drop due at a high TRUNK_FAULT alone. -/
theorem countTick (s : State) : s.Deals State.Running (State.Accounts 0) s.countTick := by
  refine ⟨rfl, rfl, fun ⟨⟨hb, hf⟩, hr⟩ => ⟨hb.same, hf.engine, fun t ht => (hf.carries t ht).congr, hf.reply,
    hf.fault.1, fun hdue => ?_, fun h => ?_⟩⟩
  · rcases Bool.or_eq_true_iff.mp hdue with h | h
    · exact hf.fault.2.1 h
    · exact (Bool.and_eq_true_iff.mp h).1
  · exact absurd h (by simp [State.countTick, hr])

theorem takeDue (s : State) : s.Deals State.Running State.Running s.takeDue := by
  have events := State.Spares.tickEvents s
  unfold State.takeDue
  generalize s.secondsEvent.paceEvent.solicitEvent.censusStepEvent = t at events ⊢
  have dropped := (ofSpares events).trans (dropEvent (b := 0) t)
  refine ⟨dropped.access, dropped.requests, fun hs => ⟨dropped.holds hs.accounts, ?_⟩⟩
  rw [dropEvent_pins, events.pins]
  exact hs.running

theorem tickEvent (s : State) : s.Deals State.Running (State.Accounts 0) s.tickEvent :=
  (takeDue s).trans (countTick _)

theorem refclkPeriod (s : State) :
    s.Deals State.Running (State.Accounts 0) s.refclkPeriod := by
  have clocked : s.Deals State.Running State.Running
      s.clocked := by
    refine ⟨?_, ?_, fun ⟨hs, hr⟩ => ?_⟩ <;> unfold State.clocked <;> split
    · rfl
    · rfl
    · rfl
    · rfl
    · exact ⟨hs.same, hr⟩
    · exact ⟨hs, hr⟩
  rw [refclkPeriod_eq]
  exact clocked.trans (cond (fun _ => tickEvent _) fun _ => given State.Running.accounts same)

/-- RESET_TRUNK answers every deferred request out of its reservation, and leaves nothing in flight (R62, R63). -/
theorem resetTrunk {b : Nat} (s : State) : s.Deals (State.Ready b) (State.Accounts b) s.resetTrunk := by
  have cancelled := State.Pays.cancelRelays s.relays (s.setRelays [])
  have books (hs : s.Books b) := hs.cancelRelays
  unfold State.resetTrunk
  dsimp only
  generalize (s.setRelays []).cancelRelays s.relays = t at cancelled books ⊢
  have queue : t.releases = s.releases := cancelled.releases
  have settled := State.Pays.settleReleases true false .cancelled s.releases (t.setReleases [])
  have books (hs : s.Books b) := (books hs).settleReleases (es := s.releases) (by rw [queue]) (fun _ => by rw [queue])
    true false .cancelled
  generalize (t.setReleases []).settleReleases true false .cancelled s.releases = u at settled books ⊢
  have abandoned := State.Spares.foldl (f := fun u (o : Offer) => u.abandonOffer o.slot u.offerQuarantine)
    (fun u o => State.Spares.abandonOffer o.slot u.offerQuarantine u) s.enrol.offers u
  generalize s.enrol.offers.foldl (fun u o => u.abandonOffer o.slot u.offerQuarantine) u = v at abandoned ⊢
  have stopped := (abandoned.andSame (u := State.settleCensus { v with
    enrol := { v.enrol with offers := [], solicitDue := false } })).trans (State.Spares.settlePolling _)
  generalize (State.settleCensus { v with enrol := { v.enrol with offers := [], solicitDue := false } }).settlePolling = w
    at stopped ⊢
  obtain ⟨hpins, hengine⟩ : s.LeavesTrunk w := (State.LeavesTrunk.trans (t := t) cancelled.leavesTrunk
    (State.LeavesTrunk.trans (t := u) settled.leavesTrunk stopped.leavesTrunk))
  have left := enterOff (b := b) { w with engine := { w.engine with txn := none, burst := 0 } }
  refine ⟨?_, ?_, fun hs => left.holds ⟨?_, rfl, ?_, ?_⟩⟩
  · exact left.access.trans ((congrArg HostPort.access stopped.host).trans (settled.access.trans cancelled.access))
  · exact left.requests.trans ((congrArg HostPort.requests stopped.host).trans (settled.requests.trans cancelled.requests))
  · exact ((books hs.accounts.books).spares stopped).same
  · show w.engine.dropDue = true → w.pins.fault = true
    rw [hpins, hengine]
    exact hs.accounts.flight.fault.2.1
  · show w.pins.rstLow = false
    rw [hpins]
    exact hs.running

/-! ### Requests that are answered at once -/

end State.Deals

/-- A lease summary is nine bytes (Table 9-9). -/
theorem leaseSummary_length (l : Lease) : (leaseSummary l).length = 9 := by
  simp [leaseSummary, optNat, natBytes, halfBytes]

/-- A slot record is 32 bytes (Table 9-8). -/
theorem slotRecord_length (n : Slot) (inRing : Bool) (o : Option Lease) : (slotRecord n inRing o).length = 32 := by
  cases o with
  | none => simp [slotRecord]
  | some l => simp [slotRecord, optNat, optHalf, natBytes, halfBytes, identityBytes]

/-- The report of an address entry is at most a slot, an identity and a lease summary (R27). -/
theorem entryReport_length (s : State) (a : Address) : (s.entryReport a).length ≤ 16 := by
  unfold State.entryReport
  split
  · exact Nat.zero_le _
  · simp [natBytes, halfBytes]
  · split
    · simp [leaseSummary_length, identityBytes]
    · simp

namespace State.Deals

/-- A response within the room left, after changes that spare what the other responses hang on. -/
theorem answers {b : Nat} {s t : State} {q : Request} {tag : Byte} {r : Result} {data : List Byte} (h : s.Spares t)
    (hb : data.length + 4 ≤ b := by exact Nat.le_of_ble_eq_true rfl) :
    s.Deals (State.Ready b) (State.Accounts 0) (t.answer q tag r data) := by
  have haccess := congrArg HostPort.access h.host
  have hrequests := congrArg HostPort.requests h.host
  exact ⟨haccess, hrequests, fun hs => (hs.accounts.spares h).answer hb⟩

/-- The same with nothing else changed. -/
theorem replies {b : Nat} {s : State} {q : Request} {tag : Byte} {r : Result} {data : List Byte}
    (hb : data.length + 4 ≤ b := by exact Nat.le_of_ble_eq_true rfl) :
    s.Deals (State.Ready b) (State.Accounts 0) (s.answer q tag r data) := answers (.refl s) hb

theorem echoRequest (tag : Byte) (args : List Byte) (s : State) :
    s.Deals (State.Ready (args.length + 4)) (State.Accounts 0) (echoRequest tag args s) :=
  cond (fun _ => replies (Nat.le_refl _)) fun _ => replies (Nat.le_add_left 4 _)

theorem readEngineRequest (tag : Byte) (args : List Byte) (s : State) :
    s.Deals (State.Ready 15) (State.Accounts 0) (readEngineRequest tag args s) := by
  unfold Machine.readEngineRequest
  split
  · exact replies
  · exact replies

theorem configureRequest (tag : Byte) (args : List Byte) (s : State) :
    s.Deals (State.Ready 9) (State.Accounts 0) (configureRequest tag args s) := by
  unfold Machine.configureRequest
  split
  · split
    · exact replies
    · exact cond (fun _ => replies) fun _ => cond (fun _ => replies) fun _ =>
        answers (State.Spares.afterSame (State.Spares.writeEffect _ _ _ _))
  · exact replies

/-- At most sixteen values of two bytes are read (R179). -/
theorem readConfigRequest (tag : Byte) (args : List Byte) (s : State) :
    s.Deals (State.Ready 38) (State.Accounts 0) (readConfigRequest tag args s) := by
  unfold Machine.readConfigRequest
  split
  · next first count =>
    refine cond (fun h => replies ?_) fun _ => replies
    have values (ps : List Param) : ((ps.map (fun q => natBytes (s.params.get q))).flatten).length = 2 * ps.length := by
      induction ps with
      | nil => rfl
      | cons p ps ih =>
        rw [List.map_cons, List.flatten_cons, List.length_append, ih, List.length_cons]
        simp only [natBytes, halfBytes, List.length_cons, List.length_nil]
        omega
    have taken := List.length_take_le count.toNat (Param.all.drop (first.toNat - 1))
    rw [List.length_append, values]
    simp only [List.length_cons, List.length_nil]
    omega
  · exact replies

theorem enableRequest (tag : Byte) (args : List Byte) (s : State) :
    s.Deals (State.Ready 5) (State.Accounts 0) (enableRequest tag args s) := by
  have enabled : s.Deals (State.Ready 5) (State.Accounts 5) s.enableTrunk := by
    unfold State.enableTrunk
    refine cond (fun hoff => ⟨rfl, rfl, fun ⟨⟨hb, hf⟩, hr, _⟩ => ⟨hb.same, ?_⟩⟩)
      fun _ => (refl s).given fun hs => hs.accounts
    have idle := hf.engine.txn_none (EngineState.not_busy.mpr (.inl hoff)) (by simp [hoff])
    cases hfault : s.pins.fault with
    | true =>
      exact .free idle (EngineState.not_busy.mpr (by simp)) (faultSound_aside (by simp) hr fun _ => hfault)
    | false =>
      refine .free idle (EngineState.not_busy.mpr (by simp)) (State.Live.faultSound ⟨hr, hfault, ?_⟩)
      show s.engine.dropDue = false
      by_contra hdue
      have high := hf.fault.2.1 (by simpa using hdue)
      rw [hfault] at high
      cases high
  unfold Machine.enableRequest
  split
  · exact cond (fun _ => replies) fun _ => cond (fun _ => replies) fun _ =>
      enabled.trans ⟨rfl, rfl, fun hs => hs.answer (Nat.le_refl 5)⟩
  · exact replies

/-- A DISABLE that must wait keeps five bytes reserved (R61). -/
theorem disableRequest (tag : Byte) (args : List Byte) (s : State) :
    s.Deals (State.Ready 5) (State.Accounts 0) (disableRequest tag args s) := by
  have leaves (ht : s.engine.state = .idle ∨ s.engine.state = .held) :
      s.Deals (State.Ready 5) (State.Accounts 0) (s.enterOff.answer .trunkControl tag .ok [EngineState.off.code]) := by
    refine trans (t := s.enterOff) (Q := State.Accounts 5) ((enterOff s).given fun hs => ⟨hs.accounts.books, ?_,
      hs.accounts.flight.fault.2.1, hs.running⟩) ⟨rfl, rfl, fun hs => hs.answer (Nat.le_refl 5)⟩
    exact hs.accounts.flight.engine.txn_none (EngineState.not_busy.mpr (by tauto))
      (by rcases ht with e | e <;> simp [e])
  unfold Machine.disableRequest
  split
  · exact replies
  · next hp =>
    split
    · exact replies
    · next h => exact leaves (.inl h)
    · next h => exact leaves (.inr h)
    · refine ⟨rfl, rfl, fun ⟨⟨hb, hf⟩, _, _⟩ => ⟨hb.defer rfl ?_ (Nat.le_refl 5) hb.queues hb.releases,
        hf.congr fun _ _ hc => hc.congr⟩⟩
      simp only [State.deferredBytes, hp]
      rfl

theorem resetTrunkRequest (tag : Byte) (args : List Byte) (s : State) :
    s.Deals (State.Ready 5) (State.Accounts 0) (resetTrunkRequest tag args s) :=
  (resetTrunk s).trans ⟨rfl, rfl, fun hs => hs.answer (Nat.le_refl 5)⟩

theorem causeControlRequest (tag : Byte) (args : List Byte) (s : State) :
    s.Deals (State.Ready 8) (State.Accounts 0) (causeControlRequest tag args s) := by
  unfold Machine.causeControlRequest
  split
  · split
    · exact replies
    · refine cond (fun _ => ⟨rfl, rfl, fun hs => ?_⟩) fun _ => answers .same
      refine ⟨hs.accounts.books.congr ?_, hs.accounts.flight.congr fun _ _ hc => hc.congr⟩
      rw [State.append_responses, List.length_append]
      exact Nat.le_refl _
  · exact replies

theorem readCausesRequest (tag : Byte) (args : List Byte) (s : State) :
    s.Deals (State.Ready 8) (State.Accounts 0) (readCausesRequest tag args s) := by
  unfold Machine.readCausesRequest
  split
  · exact replies
  · exact replies

/-- At most eight members of three bytes are read (R213). -/
theorem readChangesRequest (tag : Byte) (args : List Byte) (s : State) :
    s.Deals (State.Ready 30) (State.Accounts 0) (readChangesRequest tag args s) := by
  unfold Machine.readChangesRequest
  split
  · next m =>
    have removed (ns : List Slot) : s.Spares (s.removeChanges ns) := State.Spares.foldl (fun _ _ => .same) ns s
    have cleared (t : State) : t.Spares t.clearChanges := State.Spares.cond (fun _ => .same) fun _ => .refl t
    refine cond (fun h => answers ((removed (s.changeSet.take _)).trans (cleared _)) ?_) fun _ => replies
    have entries (ns : List Slot) : ((ns.map s.changeEntry).flatten).length = 3 * ns.length := by
      induction ns with
      | nil => rfl
      | cons n ns ih =>
        rw [List.map_cons, List.flatten_cons, List.length_append, ih, List.length_cons]
        simp only [State.changeEntry, List.length_cons, List.length_nil]
        omega
    have taken := List.length_take_le m.toNat s.changeSet
    rw [List.length_append, entries]
    simp only [List.length_cons, List.length_nil]
    omega
  · exact replies

theorem readSlotRequest (tag : Byte) (args : List Byte) (s : State) :
    s.Deals (State.Ready 36) (State.Accounts 0) (readSlotRequest tag args s) := by
  unfold Machine.readSlotRequest
  split
  · split
    · exact replies (by rw [slotRecord_length])
    · exact replies
  · exact replies

theorem lookupIdentityRequest (tag : Byte) (args : List Byte) (s : State) :
    s.Deals (State.Ready 14) (State.Accounts 0) (lookupIdentityRequest tag args s) := by
  unfold Machine.lookupIdentityRequest
  split
  · split
    · exact replies
    · split
      · exact replies (by rw [List.length_cons, leaseSummary_length])
      · exact replies
  · exact replies

theorem lookupAddressRequest (tag : Byte) (args : List Byte) (s : State) :
    s.Deals (State.Ready 22) (State.Accounts 0) (lookupAddressRequest tag args s) := by
  unfold Machine.lookupAddressRequest
  split
  · split
    · next a _ =>
      have report := entryReport_length s a
      refine replies ?_
      rw [List.length_append]
      exact Nat.add_le_add_right (Nat.add_le_add_left report 2) 4
    · exact replies
  · exact replies

/-- SET_FIELDS writes a lease and leaves its status, its identity and its address (R29). -/
theorem setFieldsRequest (tag : Byte) (args : List Byte) (s : State) :
    s.Deals (State.Ready 10) (State.Accounts 0) (setFieldsRequest tag args s) := by
  have kept (l : Lease) (c : Nat) (label : Option Half) : (l.withFields c label).status = l.status ∧
      (l.withFields c label).identity = l.identity ∧ (l.withFields c label).address = l.address := by
    unfold Lease.withFields
    split <;> exact ⟨rfl, rfl, rfl⟩
  unfold Machine.setFieldsRequest
  split
  · split
    · exact replies
    · refine cond (fun _ => replies) fun _ => ?_
      split
      · exact replies
      · next l hl =>
        split
        · exact replies
        · exact answers (State.Spares.revise hl (kept l _ _))
  · exact replies

theorem pinRequest (tag : Byte) (args : List Byte) (s : State) :
    s.Deals (State.Ready 5) (State.Accounts 0) (pinRequest tag args s) := by
  unfold Machine.pinRequest
  split
  · dsimp only
    split
    · exact replies
    · split
      · exact replies
      · refine cond (fun _ => replies) fun _ => ?_
        split
        · exact replies
        · next hn => exact answers (State.Spares.createLease hn (l := newLease .reserved _ _ none .pinned))
  · exact replies

theorem retireForcedRequest (tag : Byte) (args : List Byte) (s : State) :
    s.Deals (State.Ready 11) (State.Accounts 0) (retireForcedRequest tag args s) := by
  unfold Machine.retireForcedRequest
  split
  · split
    · exact replies
    · refine cond (fun _ => replies) fun _ => ?_
      split
      · exact replies
      · next l hl =>
        split
        · exact replies
        · next hst =>
          refine answers (State.Spares.retireNow ?_ l)
          cases h : l.status with
          | releasing term => exact absurd h (hst term)
          | _ => exact lease_unreleasing hl h
  · exact replies

theorem ringMoveRequest (tag : Byte) (args : List Byte) (s : State) :
    s.Deals (State.Ready 6) (State.Accounts 0) (ringMoveRequest tag args s) := by
  unfold Machine.ringMoveRequest
  split
  · split
    · exact cond (fun _ => replies) fun _ => cond (fun _ => replies) fun _ => cond (fun _ => replies) fun _ =>
        answers .same
    · exact replies
  · exact replies

theorem setEnrolModeRequest (tag : Byte) (args : List Byte) (s : State) :
    s.Deals (State.Ready 8) (State.Accounts 0) (setEnrolModeRequest tag args s) := by
  unfold Machine.setEnrolModeRequest
  split
  · split
    · exact replies
    · exact answers .same
  · exact replies

/-! ### The Admission List (4.4) -/

/-- An Admission List within its size and without repetition is written (R86). -/
theorem admits {b : Nat} {s : State} {xs : List Identity} {q : Request} {tag : Byte} {r : Result} {data : List Byte}
    (hxs : s.enrol.admission.length ≤ 32 ∧ s.enrol.admission.Nodup → xs.length ≤ 32 ∧ xs.Nodup)
    (hb : data.length + 4 ≤ b := by exact Nat.le_of_ble_eq_true rfl) :
    s.Deals (State.Ready b) (State.Accounts 0) ((s.setAdmission xs).answer q tag r data) := by
  refine ⟨rfl, rfl, fun ⟨⟨hbooks, hf⟩, _, _⟩ => ?_⟩
  obtain ⟨hreserved, hroom, hq, hm⟩ := hbooks
  obtain ⟨hadmission, hrest⟩ := queuesFit_iff.mp hq
  have written : (s.setAdmission xs).Books b := ⟨hreserved, hroom, queuesFit_iff.mpr ⟨hxs hadmission, hrest⟩, hm⟩
  exact ⟨written.answer hb, hf.congr fun _ _ hc => hc.congr⟩

theorem admitAddRequest (tag : Byte) (args : List Byte) (s : State) :
    s.Deals (State.Ready 6) (State.Accounts 0) (admitAddRequest tag args s) := by
  unfold Machine.admitAddRequest
  split
  · refine cond (fun _ => replies) fun hnew => cond (fun _ => replies) fun hroom => admits fun ⟨_, hnodup⟩ => ?_
    refine ⟨by simpa using Nat.not_le.mp hroom, hnodup.append (List.nodup_singleton _) ?_⟩
    exact List.disjoint_singleton.mpr (by simpa using hnew)
  · exact replies

theorem admitRemoveRequest (tag : Byte) (args : List Byte) (s : State) :
    s.Deals (State.Ready 6) (State.Accounts 0) (admitRemoveRequest tag args s) := by
  unfold Machine.admitRemoveRequest
  split
  · refine cond (fun _ => admits fun ⟨hlength, hnodup⟩ => ?_) fun _ => replies
    exact ⟨(List.length_eraseIdx_le _ _).trans hlength, hnodup.eraseIdx _⟩
  · exact replies

theorem admitClearRequest (tag : Byte) (args : List Byte) (s : State) :
    s.Deals (State.Ready 5) (State.Accounts 0) (admitClearRequest tag args s) := by
  unfold Machine.admitClearRequest
  split
  · exact admits fun _ => ⟨Nat.zero_le _, List.nodup_nil⟩
  · exact replies

theorem admitReadRequest (tag : Byte) (args : List Byte) (s : State) :
    s.Deals (State.Ready 11) (State.Accounts 0) (admitReadRequest tag args s) := by
  unfold Machine.admitReadRequest
  split
  · refine cond (fun _ => replies) fun _ => ?_
    split
    · exact replies
    · exact replies
  · exact replies

/-! ### Polls and the census -/

theorem pollControlRequest (tag : Byte) (args : List Byte) (s : State) :
    s.Deals (State.Ready 9) (State.Accounts 0) (pollControlRequest tag args s) := by
  unfold Machine.pollControlRequest
  split
  · split
    · exact replies
    · exact answers (State.Spares.setPollMode _ s)
  · exact replies

theorem pollRoundRequest (tag : Byte) (args : List Byte) (s : State) :
    s.Deals (State.Ready 8) (State.Accounts 0) (pollRoundRequest tag args s) := by
  unfold Machine.pollRoundRequest
  split
  · exact cond (fun _ => replies) fun _ => cond (fun _ => replies) fun _ => answers (State.Spares.ofWalk (.beginRound s))
  · exact replies

theorem censusStartRequest (tag : Byte) (args : List Byte) (s : State) :
    s.Deals (State.Ready 7) (State.Accounts 0) (censusStartRequest tag args s) := by
  unfold Machine.censusStartRequest
  split
  · split
    · exact cond (fun _ => answers (State.Spares.beginSweep _ _ _ s)) fun _ =>
        cond (fun _ => answers (State.Spares.beginSweep _ _ _ s)) fun _ => replies
    · exact replies
  · exact replies

theorem censusStopRequest (tag : Byte) (args : List Byte) (s : State) :
    s.Deals (State.Ready 5) (State.Accounts 0) (censusStopRequest tag args s) := by
  unfold Machine.censusStopRequest
  split
  · exact answers (State.Spares.cond (fun _ => .refl s) fun _ => .same)
  · exact replies

theorem censusStepRequest (tag : Byte) (args : List Byte) (s : State) :
    s.Deals (State.Ready 7) (State.Accounts 0) (censusStepRequest tag args s) := by
  unfold Machine.censusStepRequest
  split
  · exact cond (fun _ => replies) fun _ => answers (State.Spares.takeStep s)
  · exact replies

theorem censusStatusRequest (tag : Byte) (args : List Byte) (s : State) :
    s.Deals (State.Ready 15) (State.Accounts 0) (censusStatusRequest tag args s) := by
  unfold Machine.censusStatusRequest
  split
  · exact replies
  · exact replies

end State.Deals
end Sys2Proof.Machine

/-! ## Deferred requests and resets against the account (7.1, 7.3, 9.7) -/
namespace Sys2Proof.Machine
set_option Elab.async false

/-! ### The graceful RETIRE (R148, R149) -/

/-- From `qs` to `rs` one entry for the address `a` becomes the lease entry of slot `n`, or joins the queue as that; the entries
around it stay, and a marked head too. -/
structure ReleaseJoins (n : Slot) (tag : Byte) (a : Address) (qs rs : List Release) : Prop where
  count   : rs.countP Release.isLease = qs.countP Release.isLease + 1
  fits    : ReleasesFit rs
  entries : ∀ k ∈ rs, (k ∈ qs ∧ k.address ≠ a) ∨ (k.address = a ∧ k.reason = .retire n tag)
  stays   : ∀ k ∈ qs, k.address ≠ a → k ∈ rs
  joins   : ∃ k ∈ rs, k.ends n = true
  head    : ∀ e rest, qs = e :: rest → e.inFlight = true → ∃ rest', rs = e :: rest'

/-- A lease entry for a new address joins a queue with room (row 5 of Table 7-2). -/
theorem releaseJoins_append {n : Slot} {tag : Byte} {a : Address} {qs : List Release} (h : ReleasesFit qs)
    (hroom : qs.length < 16) (hnew : ∀ k ∈ qs, k.address ≠ a) :
    ReleaseJoins n tag a qs (qs ++ [⟨a, .retire n tag, false⟩]) where
  count := by simp [Release.isLease]
  fits := h.append hroom hnew
  entries k hk := by
    rcases List.mem_append.mp hk with hk | hk
    · exact .inl ⟨hk, hnew k hk⟩
    · obtain rfl := List.mem_singleton.mp hk
      exact .inr ⟨rfl, rfl⟩
  stays k hk _ := List.mem_append_left _ hk
  joins := ⟨_, List.mem_append_right _ (List.mem_singleton_self _), by simp [Release.ends]⟩
  head e rest hqs _ := ⟨rest ++ [⟨a, .retire n tag, false⟩], by rw [hqs, List.cons_append]⟩

/-- The address-only entry that waits for the address becomes the lease entry (row 3 of Table 7-2). -/
theorem releaseJoins_replace {n : Slot} {tag : Byte} {a : Address} {qs : List Release} {e : Release} (h : ReleasesFit qs)
    (hfind : qs.find? (fun k => k.address == a) = some e) (hwaits : e.inFlight = false) (hlease : e.isLease = false) :
    ReleaseJoins n tag a qs (qs.map (fun k => if k.address = a then { k with reason := .retire n tag } else k)) := by
  obtain ⟨ha, before, after, rfl, hbefore⟩ := List.find?_eq_some_iff_append.mp hfind
  have ha : e.address = a := by simpa using ha
  have hbefore : ∀ k ∈ before, k.address ≠ a := by simpa using hbefore
  have hafter : ∀ k ∈ after, k.address ≠ a := by
    have hnodup := h.2
    rw [List.map_append, List.nodup_append] at hnodup
    exact ha ▸ (ReleasesFit.tail ⟨(Nat.le_add_left _ _).trans (List.length_append ▸ h.1), hnodup.2.1⟩).2
  have kept {ks : List Release} (hks : ∀ k ∈ ks, k.address ≠ a) :
      ks.map (fun k => if k.address = a then { k with reason := .retire n tag } else k) = ks :=
    (List.map_congr_left fun k hk => if_neg (hks k hk)).trans (List.map_id ks)
  have queue : (before ++ e :: after).map (fun k => if k.address = a then { k with reason := .retire n tag } else k) =
      before ++ { e with reason := .retire n tag } :: after := by
    rw [List.map_append, List.map_cons, kept hbefore, kept hafter, if_pos ha]
  rw [queue]
  refine ⟨?_, ?_, fun k hk => ?_, fun k hk hka => ?_, ⟨{ e with reason := .retire n tag }, by simp, by simp [Release.ends]⟩,
    fun e' rest hqs hmark => ?_⟩
  · have now : ({ e with reason := .retire n tag } : Release).isLease = true := rfl
    rw [List.countP_append, List.countP_append, List.countP_cons_of_pos now, List.countP_cons_of_neg (by simp [hlease])]
    omega
  · obtain ⟨hlength, hnodup⟩ := h
    exact ⟨by simpa using hlength, by simpa using hnodup⟩
  · rcases List.mem_append.mp hk with hk | hk
    · exact .inl ⟨List.mem_append_left _ hk, hbefore k hk⟩
    · rcases List.mem_cons.mp hk with rfl | hk
      · exact .inr ⟨ha, rfl⟩
      · exact .inl ⟨List.mem_append_right _ (List.mem_cons_of_mem _ hk), hafter k hk⟩
  · rcases List.mem_append.mp hk with hk | hk
    · exact List.mem_append_left _ hk
    · rcases List.mem_cons.mp hk with rfl | hk
      · exact absurd ha hka
      · exact List.mem_append_right _ (List.mem_cons_of_mem _ hk)
  · cases before with
    | nil =>
      obtain ⟨rfl, -⟩ := List.cons_eq_cons.mp hqs
      rw [hwaits] at hmark
      cases hmark
    | cons k ks =>
      obtain ⟨rfl, -⟩ := List.cons_eq_cons.mp hqs
      exact ⟨_, rfl⟩

/-- An entry for the address of a lease that is not RELEASING completes no lease. -/
theorem entry_addressOnly {s : State} (hmap : s.MapMatches) (hm : s.ReleasesMatch) {n : Slot} {l : Lease}
    (hl : s.lease n = some l) (hn : releasingAs (s.lease n) = none) {e : Release} (he : e ∈ s.releases)
    (ha : e.address = l.address) : e.isLease = false := by
  by_contra hlease
  obtain ⟨m, tag, hr⟩ := isLease_iff.mp (by simpa using hlease)
  obtain ⟨x, hx⟩ := (releasesMatch_iff.mp hm).1 e he m tag hr
  obtain ⟨k, -, hk, -, -, hka⟩ := releasingAs_eq_some.mp hx
  have held := hmap.1 m k hk
  rw [hka, ha, hmap.1 n l hl] at held
  cases held
  rw [hn] at hx
  cases hx

/-- What the start of a release leaves: the lease is RELEASING at its address, and the rest is spared. -/
theorem startReleasing_leases (n : Slot) (l : Lease) (term : Nat) (s : State) (m : Slot) :
    releasingAs ((s.startReleasing n l term).lease m) =
      if m = n then some (l.identity, l.address) else releasingAs (s.lease m) := by
  refine ((State.Spares.pollSettle _).leases m).trans ?_
  rw [State.leaveRing_lease, State.changeStatus_lease]
  split <;> rfl

theorem startReleasing_frame (n : Slot) (l : Lease) (term : Nat) (s : State) :
    (s.startReleasing n l term).pins = s.pins ∧ (s.startReleasing n l term).host = s.host ∧
      (s.startReleasing n l term).relays = s.relays ∧ (s.startReleasing n l term).enrol = s.enrol ∧
      (s.startReleasing n l term).engine = s.engine ∧ (s.startReleasing n l term).releases = s.releases := by
  obtain ⟨hpins, hhost, -, henrol, -, hreleases, hrelays, hengine, -⟩ := (State.WalksTo.pollSettle
    ((s.changeStatus n l (.releasing term)).leaveRing n)).frame
  exact ⟨hpins, hhost, hrelays, henrol, hengine, hreleases⟩

namespace State.Deals

/-- The lease becomes RELEASING with its entry in the Release Queue, and its request keeps eleven bytes reserved (R149). -/
theorem startReleasing {n : Slot} {l : Lease} {tag : Byte} {rs : List Release} (term : Nat) {s : State}
    (hl : s.lease n = some l) (hn : releasingAs (s.lease n) = none)
    (hj : s.Ready 11 → ReleaseJoins n tag l.address s.releases rs) :
    s.Deals (State.Ready 11) (State.Accounts 0) (((s.setReleases rs).startReleasing n l term).defer .retire) := by
  obtain ⟨hpins, hhost, hrelays, henrol, hengine, hreleases⟩ := startReleasing_frame n l term (s.setReleases rs)
  have leases := startReleasing_leases n l term (s.setReleases rs)
  generalize (s.setReleases rs).startReleasing n l term = u at hpins hhost hrelays henrol hengine hreleases leases ⊢
  have host : u.host = s.host := hhost
  have other {m : Slot} (hm : (releasingAs (s.lease m)).isSome = true) :
      releasingAs (u.lease m) = releasingAs (s.lease m) := by
    rw [leases, if_neg]
    · rfl
    · rintro rfl
      rw [hn] at hm
      cases hm
  have haccess := congrArg HostPort.access host
  have hrequests := congrArg HostPort.requests host
  refine ⟨haccess, hrequests, fun hs => ?_⟩
  obtain ⟨count, fits, entries, stays, joins, head⟩ := hj hs
  obtain ⟨⟨hb, hf⟩, -, hmap⟩ := hs
  obtain ⟨hadmission, -, hlength⟩ := queuesFit_iff.mp hb.queues
  obtain ⟨hentries, hleases⟩ := releasesMatch_iff.mp hb.releases
  refine ⟨hb.defer host ?_ (Nat.le_refl 11) (queuesFit_iff.mpr ⟨?_, ?_, ?_⟩) (releasesMatch_iff.mpr ⟨?_, ?_⟩),
    hf.congr (fun t ht hc hkind => ?_) ⟨hpins, congrArg Engine.state hengine, congrArg Engine.txn hengine,
      congrArg Engine.dropDue hengine⟩⟩
  · simp only [State.deferredBytes, hrelays, hreleases, hengine, State.setReleases_releases, State.setReleases_relays,
      State.setReleases_engine, count, Request.reservation, Request.maxResponse]
    omega
  · rw [henrol]
    exact hadmission
  · rw [hreleases]
    exact fits
  · rw [hrelays]
    exact hlength
  · rw [hreleases]
    intro k hk m ktag hr
    rcases entries k hk with ⟨hq, -⟩ | ⟨ha, hreason⟩
    · obtain ⟨x, hx⟩ := hentries k hq m ktag hr
      exact ⟨x, (other (by rw [hx]; rfl)).trans hx⟩
    · obtain ⟨rfl, -⟩ := ReleaseReason.retire.inj (hr.symm.trans hreason)
      exact ⟨l.identity, by rw [leases, if_pos rfl, ha]⟩
  · rw [hreleases]
    intro m hm
    by_cases e : m = n
    · subst e
      exact List.any_eq_true.mpr joins
    · rw [leases, if_neg e] at hm
      obtain ⟨k, hk, hends⟩ := List.any_eq_true.mp (hleases m hm)
      refine List.any_eq_true.mpr ⟨k, stays k hk fun ha => ?_, hends⟩
      have silent := ends_eq_false (entry_addressOnly hmap hb.releases hl hn hk ha) m
      rw [silent] at hends
      cases hends
  · obtain ⟨e, rest, hrs, hmark, haddress, hcapture⟩ := hc hkind
    obtain ⟨rest', hrest⟩ := head e rest hrs hmark
    refine ⟨e, rest', hreleases.trans hrest, hmark, haddress, fun m etag hr => ?_⟩
    obtain ⟨hslot, htag, hidentity⟩ := hcapture m etag hr
    obtain ⟨x, hx⟩ := hentries e (hrs ▸ List.mem_cons_self) m etag hr
    obtain ⟨k, -, hk, -, hkx, -⟩ := releasingAs_eq_some.mp hx
    obtain ⟨k', -, hk', -, hkx', -⟩ := releasingAs_eq_some.mp ((other (by rw [hx]; rfl)).trans hx)
    exact ⟨hslot, htag, by rw [hidentity, hk, show (u.defer .retire).lease m = some k' from hk', Option.map_some,
      Option.map_some, hkx, hkx']⟩

/-- Rows 2 to 5 of Table 7-2. -/
theorem retireByRelease {n : Slot} {l : Lease} (term : Nat) (tag : Byte) {s : State} (hl : s.lease n = some l)
    (hn : releasingAs (s.lease n) = none) :
    s.Deals (State.Ready 11) (State.Accounts 0) (s.retireByRelease n l term tag) := by
  unfold State.retireByRelease
  split
  · next e hfind =>
    refine cond (fun _ => replies) fun hwaits => startReleasing (tag := tag) term hl hn fun hs => ?_
    obtain ⟨-, hfits, -⟩ := queuesFit_iff.mp hs.accounts.books.queues
    exact releaseJoins_replace hfits hfind (by simpa using hwaits) (entry_addressOnly hs.map hs.accounts.books.releases hl hn
      (List.mem_of_find?_eq_some hfind) (by simpa using List.find?_some hfind))
  · next hfind =>
    refine cond (fun _ => replies) fun hroom => startReleasing (tag := tag) term hl hn fun hs => ?_
    obtain ⟨-, hfits, -⟩ := queuesFit_iff.mp hs.accounts.books.queues
    exact releaseJoins_append hfits (Nat.not_le.mp hroom) (by simpa using hfind)

theorem retireGracefulRequest (tag : Byte) (args : List Byte) (s : State) :
    s.Deals (State.Ready 11) (State.Accounts 0) (retireGracefulRequest tag args s) := by
  unfold Machine.retireGracefulRequest
  split
  · split
    · exact replies
    · split
      · exact replies
      · next hl =>
        split
        · exact replies
        · next hst => exact retireByRelease _ tag hl (lease_unreleasing hl hst)
        · next hst => exact retireByRelease _ tag hl (lease_unreleasing hl hst)
        · exact replies
  · exact replies

/-! ### RELAY and RELAY_CANCEL (R156, R161) -/

/-- A relay that joins the queue keeps eighteen bytes reserved. -/
theorem relayEnters (e : Relay) (s : State) : s.Deals (State.Ready 18) (State.Accounts 0)
    (if Config.relays ≤ s.relays.length then s.answer .relay e.tag .full []
      else (s.setRelays (s.relays ++ [e])).defer .relay) := by
  refine cond (fun _ => replies) fun hroom => ⟨rfl, rfl, fun ⟨⟨hb, hf⟩, _, _⟩ =>
    ⟨hb.defer rfl ?_ (Nat.le_refl 18) ?_ hb.releases, hf.congr fun _ _ hc => hc.congr⟩⟩
  · have owed := deferredBytes_setRelays (s.relays ++ [e]) s
    rw [List.length_append, List.length_singleton] at owed
    show _ = _ + 18
    omega
  · obtain ⟨hadmission, hreleases, -⟩ := queuesFit_iff.mp hb.queues
    exact queuesFit_iff.mpr ⟨hadmission, hreleases, by simpa using Nat.not_le.mp hroom⟩

theorem relayRequest (tag : Byte) (args : List Byte) (s : State) :
    s.Deals (State.Ready 18) (State.Accounts 0) (relayRequest tag args s) := by
  unfold Machine.relayRequest
  split
  · refine cond (fun _ => replies) fun _ => ?_
    split
    · dsimp only
      split
      · exact relayEnters ⟨tag, _, _, _, _, false⟩ s
      · exact cond (fun _ => relayEnters ⟨tag, _, _, _, _, false⟩ s) fun _ => replies
    · exact replies
  · exact replies

/-- One relay leaves the queue when one that waits carries the tag. -/
theorem cancelFirst_length {tag : Byte} {es : List Relay} (h : es.any (fun e => e.tag == tag && !e.inFlight) = true) :
    (cancelFirst tag es).length + 1 = es.length := by
  induction es with
  | nil => cases h
  | cons e rest ih =>
    unfold cancelFirst
    split
    · rfl
    · next hne =>
      rw [List.length_cons, List.length_cons, ih]
      simpa [hne] using h

theorem relayCancelRequest (tag : Byte) (args : List Byte) (s : State) :
    s.Deals (State.Ready 5) (State.Accounts 0) (relayCancelRequest tag args s) := by
  unfold Machine.relayCancelRequest
  split
  · next k =>
    refine cond (fun hany => ⟨rfl, rfl, fun ⟨⟨hb, hf⟩, _, _⟩ => ⟨?_, hf.congr fun _ _ hc => hc.congr⟩⟩) fun _ =>
      cond (fun _ => replies) fun _ => replies
    have gone := cancelFirst_length hany
    obtain ⟨hadmission, hreleases, hrelays⟩ := queuesFit_iff.mp hb.queues
    refine (hb.settle (u := s.setRelays (cancelFirst k s.relays)) rfl ?_ (Nat.le_of_ble_eq_true rfl)
      (queuesFit_iff.mpr ⟨hadmission, hreleases, ?_⟩) hb.releases).answer (Nat.le_refl 5)
    · have owed := deferredBytes_setRelays (cancelFirst k s.relays) s
      show _ + 18 = _
      omega
    · show (cancelFirst k s.relays).length ≤ 8
      omega
  · exact replies

/-! ### The Dispatcher's own answers (R186, R193) -/

theorem badFrameRequest (e : ReqEntry) (s : State) :
    s.Deals (State.Ready 5) (State.Accounts 0) (badFrameRequest e s) := by
  cases e with
  | frame bytes => exact ⟨rfl, rfl, fun hs => hs.accounts.weaken (Nat.zero_le 5)⟩
  | marker b => exact ⟨rfl, rfl, fun hs => hs.accounts.respond (Nat.le_refl 5)⟩

theorem unknownRequestAnswer (e : ReqEntry) (s : State) :
    s.Deals (State.Ready 4) (State.Accounts 0) (unknownRequestAnswer e s) := by
  cases e with
  | frame bytes => exact ⟨rfl, rfl, fun hs => hs.accounts.respond (Nat.le_refl 4)⟩
  | marker b => exact ⟨rfl, rfl, fun hs => hs.accounts.weaken (Nat.zero_le 4)⟩

end State.Deals

/-! ### Resets (R201, R202) -/

/-- Every block at its reset value, with any access and no response. -/
theorem held_accounts (pins : Pins) (pending : List Instr) (b : Nat) (hb : b ≤ 512) : (State.held pins pending).Accounts b := by
  have unleased (n : Slot) : (State.held pins pending).lease n = none := by
    simp [State.lease, State.held, LeaseTable.reset]
  refine ⟨⟨rfl, by simpa [State.held, HostPort.reset] using hb, queuesFit_iff.mpr ⟨⟨Nat.zero_le _, List.nodup_nil⟩,
    ⟨Nat.zero_le _, List.nodup_nil⟩, Nat.zero_le _⟩, releasesMatch_iff.mpr ⟨nofun, fun n hn => ?_⟩⟩,
    .free rfl (EngineState.not_busy.mpr (.inl rfl)) ⟨fun _ => .inl rfl, nofun, fun _ => ⟨rfl, rfl⟩⟩⟩
  rw [slot_unreleasing (unleased n)] at hn
  cases hn

/-- A part just out of reset has its Engine OFF, whatever the level of TRUNK_FAULT. -/
theorem restart_accounts {s : State} {b : Nat} (hs : s.Accounts b) (hoff : s.engine.state = .off)
    (hr : s.pins.rstLow = false) : s.restart.Accounts b := by
  obtain ⟨hb, hf⟩ := hs
  unfold State.restart
  dsimp only
  split
  · next hfault => exact ⟨hb.same, hf.engine, fun t ht => (hf.carries t ht).congr, hf.reply,
      faultSound_aside (.inl hoff) hr fun _ => hfault⟩
  · exact ⟨hb.same, hf.congr fun _ _ hc => hc.congr⟩

end Sys2Proof.Machine

/-! ## Every command against the Request FIFO and the response space (9.1 to 9.4, 9.7) -/
namespace Sys2Proof.Machine
set_option Elab.async false

/-! ### The Request FIFO (R183, R184) -/

theorem requestBytes_append (es : List ReqEntry) (e : ReqEntry) : requestBytes (es ++ [e]) = requestBytes es + e.size := by
  simp [requestBytes]

theorem requestBytes_cons (e : ReqEntry) (es : List ReqEntry) : requestBytes (e :: es) = e.size + requestBytes es := by
  simp [requestBytes]

namespace State.RequestsFit

variable {s t : State}

/-- The FIFO and the access stay. -/
theorem same (hs : s.RequestsFit) (h : t.host.access = s.host.access ∧ t.host.requests = s.host.requests := by
    exact ⟨rfl, rfl⟩) : t.RequestsFit := by
  obtain ⟨haccess, hrequests⟩ := h
  simpa only [State.RequestsFit, haccess, hrequests] using hs

/-- An access that has no frame in assembly claims no space. -/
theorem unclaimed (hs : s.RequestsFit) (ha : t.host.access.sound = true ∧ t.host.access.claimed = 0)
    (h : t.host.requests = s.host.requests := by rfl) : t.RequestsFit := by
  obtain ⟨-, hentries, hbytes⟩ := hs
  refine ⟨ha.1, h ▸ hentries, ?_⟩
  rw [ha.2, h]
  omega

/-- An empty FIFO. -/
theorem empty (ha : t.host.access.sound = true ∧ t.host.access.claimed = 0) (h : t.host.requests = []) : t.RequestsFit := by
  refine ⟨ha.1, by simp [h], ?_⟩
  rw [ha.2, h]
  exact Nat.zero_le 256

/-- The head leaves. -/
theorem popped (hs : s.RequestsFit) {e : ReqEntry} {rest : List ReqEntry} (he : s.host.requests = e :: rest) :
    (s.popped rest).RequestsFit := by
  obtain ⟨haccess, hentries, hbytes⟩ := hs
  rw [he] at hentries hbytes
  rw [requestBytes_cons] at hbytes
  have bytes : requestBytes rest + s.host.access.claimed ≤ 256 := by omega
  exact ⟨haccess, fun k hk => hentries k (List.mem_cons_of_mem _ hk), bytes⟩

/-- An entry joins out of the space it claimed, and the next frame is awaited or the rest discarded. -/
theorem joins (hs : s.RequestsFit) {e : ReqEntry} (he : e.sound = true)
    (hroom : requestBytes s.host.requests + e.size ≤ 256) (ha : t.host.access.sound = true ∧ t.host.access.claimed = 0)
    (h : t.host.requests = s.host.requests ++ [e]) : t.RequestsFit := by
  obtain ⟨-, hentries, -⟩ := hs
  refine ⟨ha.1, fun k hk => ?_, ?_⟩
  · rcases List.mem_append.mp (h ▸ hk) with hk | hk
    · exact hentries k hk
    · exact List.mem_singleton.mp hk ▸ he
  · rw [ha.2, h, requestBytes_append]
    omega

/-- A length byte claims the bytes of its frame when they are free (R183, R186). -/
theorem takeLength (hs : s.RequestsFit) (ha : s.host.access = .write .expectLength) (b : Byte) :
    (s.takeLength b).RequestsFit := by
  have space : s.requestSpace = 256 - requestBytes s.host.requests := by
    simp [State.requestSpace, ha, Access.claimed, Config.requestFifo]
  have bytes := hs.2.2
  unfold State.takeLength
  dsimp only
  split
  · next hlength =>
    split
    · next hroom =>
      refine ⟨?_, hs.2.1, ?_⟩
      · simp only [State.setAssembly, State.setAccess, Access.sound, Assembly.sound, List.length_singleton, decide_eq_true_eq]
        omega
      · show requestBytes s.host.requests + b.toNat ≤ 256
        omega
    · exact hs.unclaimed ⟨rfl, rfl⟩
  · split
    · next hroom => exact hs.joins (e := .marker b) rfl (by simp only [ReqEntry.size]; omega) ⟨rfl, rfl⟩ rfl
    · exact hs.unclaimed ⟨rfl, rfl⟩

/-- A byte within a frame: the frame is whole with its last byte (R183). -/
theorem assembleFrame (hs : s.RequestsFit) {n : Nat} {got : List Byte} (ha : s.host.access = .write (.inFrame n got))
    (b : Byte) : (s.assemble b (.inFrame n got)).RequestsFit := by
  obtain ⟨haccess, hentries, hbytes⟩ := id hs
  simp only [ha, Access.sound, Assembly.sound, decide_eq_true_eq] at haccess
  rw [ha] at hbytes
  obtain ⟨hfirst, hshort, hlow, hhigh⟩ := haccess
  have claimed : requestBytes s.host.requests + n ≤ 256 := hbytes
  have grown : (got ++ [b]).length = got.length + 1 := by simp
  unfold State.assemble
  dsimp only
  split
  · refine hs.joins (e := .frame (got ++ [b])) ?_ ?_ ⟨rfl, rfl⟩ rfl
    · simp only [ReqEntry.sound, decide_eq_true_eq]
      omega
    · simp only [ReqEntry.size]
      omega
  · refine ⟨?_, hentries, claimed⟩
    simp only [State.setAssembly, State.setAccess, Access.sound, Assembly.sound, decide_eq_true_eq]
    omega

/-- A byte of a WRITE access (R183). -/
theorem assemble (hs : s.RequestsFit) {a : Assembly} (ha : s.host.access = .write a) (b : Byte) :
    (s.assemble b a).RequestsFit := by
  cases a with
  | expectLength => exact hs.takeLength ha b
  | inFrame n got => exact hs.assembleFrame ha b
  | skip m =>
    refine hs.unclaimed ?_
    show Access.sound (.write (if m ≤ 1 then .expectLength else .skip (m - 1))) = true ∧
      Access.claimed (.write (if m ≤ 1 then .expectLength else .skip (m - 1))) = 0
    split <;> exact ⟨rfl, rfl⟩
  | discard => exact hs

end State.RequestsFit

/-- An access byte opens an access with no frame in assembly. -/
theorem accessOf_unclaimed (s : State) (b : Byte) : (s.accessOf b).sound = true ∧ (s.accessOf b).claimed = 0 := by
  unfold State.accessOf
  split
  · exact ⟨rfl, rfl⟩
  · split
    · exact ⟨rfl, rfl⟩
    · split <;> exact ⟨rfl, rfl⟩

theorem afterReset_unclaimed (a : Access) : a.afterReset.sound = true ∧ a.afterReset.claimed = 0 := by
  cases a <;> exact ⟨rfl, rfl⟩

theorem restart_host (s : State) : s.restart.host = s.host := by
  unfold State.restart
  dsimp only
  split <;> rfl

/-- A RESET empties both FIFOs and leaves the access to its end (R201, R203). -/
theorem resetBlocks_host (s : State) :
    s.resetBlocks.host = { access := s.host.access.afterReset, requests := [], responses := [], reserved := 0 } :=
  restart_host _

/-- The assembly of frames is the Host Port's alone. -/
theorem assemble_accounts {s : State} {b : Nat} (hs : s.Accounts b) (byte : Byte) (a : Assembly) :
    (s.assemble byte a).Accounts b := by
  cases a with
  | expectLength =>
    show (s.takeLength byte).Accounts b
    unfold State.takeLength
    dsimp only
    split
    · split <;> exact hs.same
    · split <;> exact hs.same
  | inFrame n got =>
    unfold State.assemble
    dsimp only
    split <;> exact hs.same
  | skip m => exact hs.same
  | discard => exact hs

/-! ### The account across a change of a pin -/

/-- The account depends on RST# and TRUNK_FAULT, not on CS#. -/
theorem accounts_csLow {s : State} {b : Nat} (hs : s.Accounts b) (low : Bool) :
    State.Accounts b { s with pins := { s.pins with csLow := low } } := by
  obtain ⟨hb, hf⟩ := hs
  exact ⟨hb.same, hf.engine, fun t ht => (hf.carries t ht).congr, hf.reply, hf.fault⟩

/-- A held part has its Engine OFF, so the level of TRUNK_FAULT may be any (R202). -/
theorem accounts_fault {s : State} {b : Nat} (hs : s.Accounts b) (hr : s.pins.rstLow = true) (high : Bool) :
    State.Accounts b { s with pins := { s.pins with fault := high } } := by
  obtain ⟨hb, hf⟩ := hs
  obtain ⟨hoff, hdrop⟩ := hf.fault.2.2 hr
  exact ⟨hb.same, hf.engine, fun t ht => (hf.carries t ht).congr, hf.reply, fun _ => .inl hoff,
    fun h => absurd (hdrop.symm.trans h) Bool.false_ne_true, fun _ => ⟨hoff, hdrop⟩⟩

/-- A rising of TRUNK_FAULT finds the account as it was with the pin low. -/
theorem faulted_beginFault {s : State} (hs : s.Accounts 0) (hr : s.pins.rstLow = false) :
    (State.beginFault { s with pins := { s.pins with fault := true } }).Faulted := by
  obtain ⟨hb, hf⟩ := hs
  exact ⟨hb.same, hf.engine, fun t ht => (hf.carries t ht).congr, hf.reply, rfl, hr⟩

/-! ### What a step keeps -/

/-- From `s` to `t` the Request FIFO keeps its bounds, and with them and the Address Map the account is kept. -/
structure State.Yields (s t : State) : Prop where
  requests : s.RequestsFit → t.RequestsFit
  accounts : s.RequestsFit → s.MapMatches → s.Accounts 0 → t.Accounts 0

/-- The request whose frames a row takes. -/
def rowRequest : Instr → Option Request
  | .echo => some .echo | .readEngine => some .readEngine | .configure => some .configure | .readConfig => some .readConfig
  | .enable | .disable | .resetTrunk => some .trunkControl | .reset => some .reset | .causeControl => some .causeControl
  | .readCauses => some .readCauses | .readChanges => some .readChanges | .readSlot => some .readSlot
  | .lookupIdentity => some .lookupIdentity | .lookupAddress => some .lookupAddress | .setFields => some .setFields
  | .pin => some .pin | .retireForced | .retireGraceful => some .retire | .ringMove => some .ringMove
  | .setEnrolMode => some .setEnrolMode | .admitAdd => some .admitAdd | .admitRemove => some .admitRemove
  | .admitClear => some .admitClear | .admitRead => some .admitRead | .pollControl => some .pollControl
  | .pollRound => some .pollRound | .censusStart => some .censusStart | .censusStop => some .censusStop
  | .censusStep => some .censusStep | .censusStatus => some .censusStatus | .relay => some .relay
  | .relayCancel => some .relayCancel | _ => none

theorem request_row (q : Request) (args : List Byte) : rowRequest (q.row args) = some q := by
  cases q with
  | trunkControl =>
    unfold Request.row
    dsimp only
    split
    · rfl
    · split <;> rfl
  | retire =>
    unfold Request.row
    dsimp only
    split <;> rfl
  | _ => rfl

/-- The entries of a row that takes a request are that request's frames. -/
theorem row_request {e : ReqEntry} {q : Request} (h : rowRequest e.row = some q) :
    ∃ bytes, e = .frame bytes ∧ Request.ofCode (frameCode bytes) = some q := by
  cases e with
  | marker b => cases h
  | frame bytes =>
    unfold ReqEntry.row at h
    dsimp only at h
    split at h
    · next r hr =>
      rw [request_row] at h
      exact ⟨bytes, rfl, hr.trans h⟩
    · cases h

/-- A frame of no catalogue code has the row of UNKNOWN_REQUEST. -/
theorem row_of_noCode {bytes : List Byte} (h : Request.ofCode (frameCode bytes) = none) :
    (ReqEntry.frame bytes).row = .unknownRequest := by
  simp only [ReqEntry.row, h]

/-- The entries of a row that takes no request are markers and frames of no catalogue code. -/
theorem row_unowned {e : ReqEntry} (h : rowRequest e.row = none) :
    (∃ b, e = .marker b) ∨ ∃ bytes, e = .frame bytes ∧ Request.ofCode (frameCode bytes) = none := by
  cases e with
  | marker b => exact .inl ⟨b, rfl⟩
  | frame bytes =>
    refine .inr ⟨bytes, rfl, ?_⟩
    cases hcode : Request.ofCode (frameCode bytes) with
    | none => rfl
    | some r =>
      have owned : (ReqEntry.frame bytes).row = r.row (frameArgs bytes) := by simp only [ReqEntry.row, hcode]
      rw [owned, request_row] at h
      cases h

/-- Such an entry is taken within the space available alone (R191). -/
theorem unowned_space {s : State} {e : ReqEntry} (hf : s.fits e = true) (h : rowRequest e.row = none) :
    e.maxResponse ≤ s.space := by
  rcases row_unowned h with ⟨b, rfl⟩ | ⟨bytes, rfl, hcode⟩ <;> simpa [State.fits, *] using hf

/-- A head that is taken has its maximum response free, but for a RESET with no arguments (R191). -/
theorem space_of_fits {s : State} {bytes : List Byte} {q : Request} (hf : s.fits (.frame bytes) = true)
    (hq : Request.ofCode (frameCode bytes) = some q) (h : q ≠ .reset ∨ bytes.length ≠ 3) :
    q.maxResponse bytes.length ≤ s.space := by
  have hmax : (ReqEntry.frame bytes).maxResponse = q.maxResponse bytes.length := by simp [ReqEntry.maxResponse, hq]
  simp only [State.fits, hq, Option.some.injEq, hmax, Bool.or_eq_true, decide_eq_true_eq] at hf
  tauto

/-- The space available is the room that the books leave (R191, R192). -/
theorem State.Accounts.ready {s : State} {b : Nat} (hs : s.Accounts 0) (hr : s.pins.rstLow = false) (hmap : s.MapMatches)
    (h : b ≤ s.space) (rest : List ReqEntry) : (s.popped rest).Ready b := by
  obtain ⟨⟨hreserved, hroom, hqueues, hreleases⟩, hflight⟩ := hs
  simp only [State.space, Config.responseFifo] at h
  have free : s.Accounts b := ⟨⟨hreserved, by omega, hqueues, hreleases⟩, hflight⟩
  exact ⟨free.same, hr, .agrees ⟨rfl, rfl⟩ hmap⟩


namespace State.Yields

variable {s t u : State}

theorem refl (s : State) : s.Yields s := ⟨id, fun _ _ hs => hs⟩

/-- What the account allows, with the Host Port's input side left alone. -/
theorem ofDeals {P : State → Prop} (hP : s.Accounts 0 → P s) (h : s.Deals P (State.Accounts 0) t) : s.Yields t :=
  ⟨fun hs => hs.same ⟨h.access, h.requests⟩, fun _ _ hs => h.holds (hP hs)⟩

/-- A change of the access that leaves no frame in assembly. -/
theorem ofAccess {a : Access} (ha : a.sound = true ∧ a.claimed = 0) : s.Yields (s.setAccess a) :=
  ⟨fun hs => hs.unclaimed ha, fun _ _ hs => hs.same⟩

theorem cond {c : Prop} [Decidable c] (h : c → s.Yields t) (k : ¬c → s.Yields u) : s.Yields (if c then t else u) := by
  split
  · exact h ‹_›
  · exact k ‹_›

/-- An event of a part that is out of reset. -/
theorem ofRunning {f : State → State} (hf : s.pins.rstLow = false → s.Yields (f s)) (h : whenRunning f s = .next t) :
    s.Yields t := by
  rcases whenRunning_cases h with ⟨-, rfl⟩ | ⟨hr, rfl⟩
  · exact refl _
  · exact hf hr

/-- An event that the account allows. -/
theorem ofEvent {f : State → State} (hf : s.Deals State.Running (State.Accounts 0) (f s)) (h : whenRunning f s = .next t) :
    s.Yields t := ofRunning (fun hr => ofDeals (fun hs => ⟨hs, hr⟩) hf) h

/-- The take of an entry with its maximum response free. -/
theorem taken {b : Nat} {e : ReqEntry} {rest : List ReqEntry} (hr : s.pins.rstLow = false)
    (he : s.host.requests = e :: rest) (hspace : s.RequestsFit → b ≤ s.space)
    (h : (s.popped rest).Deals (State.Ready b) (State.Accounts 0) t) : s.Yields t :=
  ⟨fun hs => (hs.popped he).same ⟨h.access, h.requests⟩,
    fun hfit hmap hs => h.holds (hs.ready hr hmap (hspace hfit) rest)⟩

/-- The take of a marker, or of a frame of no request. -/
theorem ofHead {row : Instr} {handle : ReqEntry → State → State} {b : Nat} (hb : ∀ e : ReqEntry, e.row = row →
      ∀ u : State, u.fits e = true → b ≤ u.space)
    (hf : ∀ e (u : State), u.Deals (State.Ready b) (State.Accounts 0) (handle e u))
    (h : takeHead row handle s = .next t) : s.Yields t := by
  rcases takeHead_cases h with rfl | ⟨e, rest, hr, he, hrow, hfits, rfl⟩
  · exact refl t
  · exact taken hr he (fun _ => hb e hrow s hfits) (hf e _)

/-- The take of a request other than RESET, whose owner answers within the request's maximum response. -/
theorem ofRequest (q : Request) {row : Instr} {handle : Byte → List Byte → State → State}
    (hf : ∀ tag args (u : State),
      u.Deals (State.Ready (q.maxResponse (args.length + 3))) (State.Accounts 0) (handle tag args u))
    (h : takeRequest row handle s = .next t) (hq : rowRequest row = some q := by rfl) (hne : q ≠ .reset := by nofun) :
    s.Yields t := by
  rcases takeHead_cases h with rfl | ⟨e, rest, hr, he, rfl, hfits, rfl⟩
  · exact refl t
  · obtain ⟨bytes, rfl, hcode⟩ := row_request hq
    refine taken hr he (fun hfit => ?_) (hf _ _ _)
    have whole := hfit.2.1 _ (he ▸ List.mem_cons_self)
    simp only [ReqEntry.sound, decide_eq_true_eq] at whole
    have length : (frameArgs bytes).length + 3 = bytes.length := by
      rw [frameArgs, List.length_drop]
      omega
    rw [length]
    exact space_of_fits hfits hcode (.inl hne)

/-! ### Resets (9.7) -/

/-- A part held in reset has no request, no response and nothing in flight. -/
theorem held (pins : Pins) (pending : List Instr) : s.Yields (State.held pins pending) :=
  ⟨fun _ => .empty ⟨rfl, rfl⟩ rfl, fun _ _ _ => held_accounts pins pending 0 (Nat.zero_le 512)⟩

/-- A part that starts from its reset values has the whole Response FIFO free. -/
theorem restarted {pins : Pins} {pending : List Instr} {a : Access} (hr : pins.rstLow = false) :
    ((State.held pins pending).setAccess a).restart.Accounts 512 :=
  restart_accounts (s := (State.held pins pending).setAccess a) (held_accounts pins pending 512 (Nat.le_refl 512)).same rfl hr

theorem execRstAssert (h : execRstAssert s = .next t) : s.Yields t := by
  unfold Machine.execRstAssert at h
  split at h <;> cases h
  · exact refl s
  · exact held _ _

theorem execRstRise (h : execRstRise s = .next t) : s.Yields t := by
  unfold Machine.execRstRise at h
  split at h <;> cases h
  · refine ⟨fun _ => .empty ?_ (congrArg HostPort.requests (restart_host _)),
      fun _ _ _ => (restarted rfl).weaken (Nat.zero_le 512)⟩
    rw [restart_host]
    show Access.sound (if s.pins.csLow then .ignore else .ready) = true ∧
      Access.claimed (if s.pins.csLow then .ignore else .ready) = 0
    split <;> exact ⟨rfl, rfl⟩
  · exact refl s

/-- RESET empties both FIFOs and answers alone; with arguments it is answered within its maximum response (R191, R201). -/
theorem execReset (h : execReset s = .next t) : s.Yields t := by
  have hreset : takeRequest .reset resetRequest s = .next t := h
  rcases takeHead_cases hreset with rfl | ⟨e, rest, hr, he, hrow, hfits, rfl⟩
  · exact refl t
  · obtain ⟨bytes, rfl, hcode⟩ := row_request (e := e) (q := .reset) (by rw [hrow]; rfl)
    dsimp only
    cases hargs : frameArgs bytes with
    | nil =>
      have access : (resetRequest (frameTag bytes) [] (s.popped rest)).host.access = s.host.access.afterReset :=
        congrArg HostPort.access (resetBlocks_host (s.popped rest))
      have requests : (resetRequest (frameTag bytes) [] (s.popped rest)).host.requests = [] :=
        congrArg HostPort.requests (resetBlocks_host (s.popped rest))
      refine ⟨fun _ => .empty ?_ requests, fun _ _ _ => (restarted hr).answer (Nat.le_of_ble_eq_true rfl)⟩
      rw [access]
      exact afterReset_unclaimed _
    | cons x xs =>
      refine taken (b := 4) hr he (fun _ => space_of_fits hfits hcode (.inr fun hlength => ?_)) .replies
      have none : (frameArgs bytes).length = 0 := by rw [frameArgs, List.length_drop, hlength]
      rw [hargs] at none
      cases none

/-! ### Accesses (9.1 to 9.3) -/

theorem execCsFall (h : execCsFall s = .next t) : s.Yields t := by
  unfold Machine.execCsFall at h
  split at h
  · cases h
    exact refl s
  · have lowered : s.Yields { s with pins := { s.pins with csLow := true } } :=
      ⟨fun hs => hs.same, fun _ _ hs => accounts_csLow hs true⟩
    rcases whenRunning_cases h with ⟨-, rfl⟩ | ⟨-, rfl⟩
    · exact lowered
    · refine cond (fun _ => ?_) fun _ => lowered
      exact ⟨fun hs => hs.unclaimed ⟨rfl, rfl⟩, fun _ _ hs => (accounts_csLow hs true).same⟩

/-- A frame in assembly gives its claim back (R185). -/
theorem execCsRise (h : execCsRise s = .next t) : s.Yields t := by
  unfold Machine.execCsRise at h
  split at h
  · rcases whenRunning_cases h with ⟨-, rfl⟩ | ⟨-, rfl⟩
    · exact ⟨fun hs => hs.same, fun _ _ hs => accounts_csLow hs false⟩
    · split <;> exact ⟨fun hs => hs.unclaimed ⟨rfl, rfl⟩, fun _ _ hs => (accounts_csLow hs false).same⟩
  · cases h
    exact refl s

theorem execRequestByte {b : Byte} (h : execRequestByte b s = .next t) : s.Yields t := by
  refine ofRunning (fun _ => ?_) h
  split
  · next a ha => exact ⟨fun hs => hs.assemble ha b, fun _ _ hs => assemble_accounts hs b a⟩
  · exact refl s

theorem execResponseByteBegin (h : execResponseByteBegin s = .next t) : s.Yields t := by
  refine ofRunning (fun _ => ?_) h
  split
  · exact ofAccess ⟨rfl, rfl⟩
  · exact refl s

/-- A head byte that leaves makes room (R187). -/
theorem sendByte (out : ResponseByte) (s : State) : s.Deals (State.Accounts 0) (State.Accounts 0) (s.sendByte out) := by
  cases out with
  | head b =>
    refine ⟨rfl, rfl, fun ⟨hb, hf⟩ => ⟨hb.congr ?_, hf.congr fun _ _ hc => hc.congr⟩⟩
    show (s.host.responses.drop 1).length + 0 ≤ s.host.responses.length + 0
    rw [List.length_drop]
    omega
  | filler => exact .refl s

theorem execResponseByteRead (h : execResponseByteRead s = .next t) : s.Yields t := by
  refine ofRunning (fun _ => ?_) h
  split
  · next out spent _ =>
    have sent := sendByte (out.getD (s.chooseByte spent)) s
    exact ⟨fun hs => hs.unclaimed ⟨rfl, rfl⟩ sent.requests, fun _ _ hs => (sent.holds hs).same⟩
  · exact ofAccess ⟨rfl, rfl⟩
  · exact refl s

/-! ### Takes of the Dispatcher's own (R186, R193) -/

theorem execBadFrame (h : execBadFrame s = .next t) : s.Yields t := by
  refine ofHead (fun e hrow u hfits => ?_) State.Deals.badFrameRequest h
  rcases row_unowned (e := e) (by rw [hrow]; rfl) with ⟨b, rfl⟩ | ⟨bytes, rfl, hcode⟩
  · exact unowned_space hfits rfl
  · rw [row_of_noCode hcode] at hrow
    cases hrow

theorem execUnknownRequest (h : execUnknownRequest s = .next t) : s.Yields t := by
  refine ofHead (fun e hrow u hfits => ?_) State.Deals.unknownRequestAnswer h
  rcases row_unowned (e := e) (by rw [hrow]; rfl) with ⟨b, rfl⟩ | ⟨bytes, rfl, hcode⟩
  · cases hrow
  · have space := unowned_space hfits (by rw [row_of_noCode hcode]; rfl)
    rwa [ReqEntry.maxResponse, hcode] at space

/-! ### The Trunk Engine's events (3.1 to 3.5) -/

theorem execTrunkFaultRising (h : execTrunkFaultRising s = .next t) : s.Yields t := by
  unfold Machine.execTrunkFaultRising at h
  split at h
  · cases h
    exact refl s
  · rcases whenRunning_cases h with ⟨hr, rfl⟩ | ⟨hr, rfl⟩
    · exact ⟨fun hs => hs.same, fun _ _ hs => accounts_fault hs hr true⟩
    · have aborted := State.Deals.abortForFault (State.beginFault { s with pins := { s.pins with fault := true } })
      exact ⟨fun hs => hs.same ⟨aborted.access, aborted.requests⟩, fun _ _ hs => aborted.holds (faulted_beginFault hs hr)⟩

theorem dropEvent_dropDue (s : State) : s.dropEvent.engine.dropDue = false := by
  cases hd : s.engine.dropDue with
  | false => rw [dropEvent_notDue hd, hd]
  | true =>
    obtain ⟨-, -, hengine⟩ := takeFaultDrop_deals (b := 0) { s with engine := { s.engine with dropDue := false } }
    rw [dropEvent_due hd, hengine]

/-- A falling of TRUNK_FAULT leaves nothing due (R68). -/
theorem fallen {u : State} (hs : u.Accounts 0) (hr : u.pins.rstLow = false) (hd : u.engine.dropDue = false) :
    State.Accounts 0 { u with pins := { u.pins with fault := false }, engine := { u.engine with grace := .stopped } } := by
  obtain ⟨hb, hf⟩ := hs
  exact ⟨hb.same, hf.engine, fun t ht => (hf.carries t ht).congr, hf.reply, State.Live.faultSound ⟨hr, rfl, hd⟩⟩

/-- A HELD Engine goes to its guard with nothing in flight (R67). -/
theorem leavesHeld {u : State} (hs : u.Accounts 0) (hheld : u.engine.state = .held) (hl : u.Live) :
    (u.enterEngine .guarding).Accounts 0 := by
  have idle := hs.flight.engine.txn_none (EngineState.not_busy.mpr (by simp [hheld])) (by simp [hheld])
  exact ⟨hs.books.same, .free idle (EngineState.not_busy.mpr (by simp [State.enterEngine])) (State.Live.faultSound hl)⟩

theorem execTrunkFaultFalling (h : execTrunkFaultFalling s = .next t) : s.Yields t := by
  unfold Machine.execTrunkFaultFalling at h
  split at h
  · split at h
    · next hr =>
      cases h
      exact ⟨fun hs => hs.same, fun _ _ hs => accounts_fault hs hr false⟩
    · next hr =>
      obtain rfl := Host.Outcome.next.inj h
      have dropped := State.Deals.dropEvent (b := 0) s
      have due := dropEvent_dropDue s
      have running : s.dropEvent.pins.rstLow = false := by simpa [dropEvent_pins] using hr
      generalize s.dropEvent = u at dropped due running ⊢
      have low (hs : s.Accounts 0) := fallen (dropped.holds hs) running due
      refine cond (fun hheld => ?_) fun _ => ?_
      · exact ⟨fun hs => hs.same ⟨dropped.access, dropped.requests⟩,
          fun _ _ hs => leavesHeld (low hs) hheld ⟨running, rfl, due⟩⟩
      · exact ⟨fun hs => hs.same ⟨dropped.access, dropped.requests⟩, fun _ _ hs => low hs⟩
  · cases h
    exact refl s

theorem execFrameSent (h : execFrameSent s = .next t) : s.Yields t := by
  refine ofRunning (fun _ => cond (fun hsend => ?_) fun _ => refl s) h
  split
  · exact refl s
  · next x _ =>
    refine cond (fun _ => ofDeals id (.busy (.inl hsend) (.inr (.inl rfl)))) fun _ => ?_
    have passed : s.Deals (State.Accounts 0) (State.Accounts 0) (s.passTo (x.frame.length * s.params.charTime)) := .same
    exact ofDeals id (passed.trans (State.Deals.endAttempt _ _ (by simp) _))

/-- The next attempt is of the same transaction, within its attempts (R54). -/
theorem nextAttempt {x : Txn} (hg : s.engine.state = .guarding) (hx : s.engine.txn = some x) :
    s.Deals (State.Accounts 0) (State.Accounts 0)
      ((s.enterEngine .send).setTxn (some { x with attempt := x.attempt + 1, errorMap := 0 })) := by
  refine ⟨rfl, rfl, fun ⟨hb, hf⟩ => ⟨hb.same, ?_, ?_, ?_, State.Live.faultSound (hf.live hx)⟩⟩
  · obtain ⟨-, -, hmore⟩ := hf.engine.2.2 x hx
    exact engineSound_busy rfl (.inl rfl) (Nat.le_add_left 1 x.attempt) (hmore hg)
  · rintro y ⟨⟩
    exact (hf.carries x hx).congr
  · rintro y ⟨⟩
    exact hf.reply x hx

/-- With nothing in flight the Engine is free for a grant (R51). -/
theorem entersIdle (hg : s.engine.state = .guarding) (hx : s.engine.txn = none) :
    s.Deals (State.Accounts 0) (State.Accounts 0) (s.enterEngine .idle) :=
  ⟨rfl, rfl, fun ⟨hb, hf⟩ => ⟨hb.same, .free hx (EngineState.not_busy.mpr (by simp [State.enterEngine]))
    (State.Live.faultSound (hf.fault.live (by simp [hg]) (by simp [hg])))⟩⟩

theorem execGuardEnd (h : execGuardEnd s = .next t) : s.Yields t := by
  refine ofRunning (fun hr => cond (fun hg => ?_) fun _ => refl s) h
  split
  · next x hx => exact ofDeals id (nextAttempt hg hx)
  · next hx =>
    split
    · exact ofDeals (fun hs => ⟨hs.books, hx, hs.flight.fault.2.1, hr⟩) (State.Deals.enterOff s)
    · exact ofDeals id (entersIdle hg hx)

theorem execGrant (h : execGrant s = .next t) : s.Yields t :=
  ofRunning (fun _ => cond (fun hidle => ofDeals (fun hs => ⟨hs, hidle, rfl⟩) (State.Deals.arbitrate s)) fun _ => refl s) h

/-! ### Every command and every step -/

/-- An event that the account allows in any state. -/
theorem ofUnits {f : State → State} (hf : s.Spares (f s)) (h : whenRunning f s = .next t) : s.Yields t :=
  ofEvent (.given State.Running.accounts (.ofSpares hf)) h

theorem exec {c : Instr} (h : exec c s = .next t) : s.Yields t := by
  cases c with
  | rstAssert => exact execRstAssert h
  | rstRise => exact execRstRise h
  | csFall => exact execCsFall h
  | accessByte b => exact ofRunning (fun _ => cond (fun _ => ofAccess (accessOf_unclaimed s b)) fun _ => refl s) h
  | requestByte b => exact execRequestByte h
  | csRise => exact execCsRise h
  | responseByteRead => exact execResponseByteRead h
  | badFrame => exact execBadFrame h
  | unknownRequest => exact execUnknownRequest h
  | echo => exact ofRequest .echo State.Deals.echoRequest h
  | readEngine => exact ofRequest .readEngine State.Deals.readEngineRequest h
  | configure => exact ofRequest .configure State.Deals.configureRequest h
  | readConfig => exact ofRequest .readConfig State.Deals.readConfigRequest h
  | enable => exact ofRequest .trunkControl State.Deals.enableRequest h
  | disable => exact ofRequest .trunkControl State.Deals.disableRequest h
  | resetTrunk => exact ofRequest .trunkControl State.Deals.resetTrunkRequest h
  | reset => exact execReset h
  | causeControl => exact ofRequest .causeControl State.Deals.causeControlRequest h
  | readCauses => exact ofRequest .readCauses State.Deals.readCausesRequest h
  | readChanges => exact ofRequest .readChanges State.Deals.readChangesRequest h
  | readSlot => exact ofRequest .readSlot State.Deals.readSlotRequest h
  | lookupIdentity => exact ofRequest .lookupIdentity State.Deals.lookupIdentityRequest h
  | lookupAddress => exact ofRequest .lookupAddress State.Deals.lookupAddressRequest h
  | setFields => exact ofRequest .setFields State.Deals.setFieldsRequest h
  | pin => exact ofRequest .pin State.Deals.pinRequest h
  | retireForced => exact ofRequest .retire State.Deals.retireForcedRequest h
  | retireGraceful => exact ofRequest .retire State.Deals.retireGracefulRequest h
  | ringMove => exact ofRequest .ringMove State.Deals.ringMoveRequest h
  | setEnrolMode => exact ofRequest .setEnrolMode State.Deals.setEnrolModeRequest h
  | admitAdd => exact ofRequest .admitAdd State.Deals.admitAddRequest h
  | admitRemove => exact ofRequest .admitRemove State.Deals.admitRemoveRequest h
  | admitClear => exact ofRequest .admitClear State.Deals.admitClearRequest h
  | admitRead => exact ofRequest .admitRead State.Deals.admitReadRequest h
  | pollControl => exact ofRequest .pollControl State.Deals.pollControlRequest h
  | pollRound => exact ofRequest .pollRound State.Deals.pollRoundRequest h
  | censusStart => exact ofRequest .censusStart State.Deals.censusStartRequest h
  | censusStop => exact ofRequest .censusStop State.Deals.censusStopRequest h
  | censusStep => exact ofRequest .censusStep State.Deals.censusStepRequest h
  | censusStatus => exact ofRequest .censusStatus State.Deals.censusStatusRequest h
  | relay => exact ofRequest .relay State.Deals.relayRequest h
  | relayCancel => exact ofRequest .relayCancel State.Deals.relayCancelRequest h
  | tick => exact ofEvent (.tickEvent s) h
  | secondsStrobe => exact ofUnits (.secondsEvent s) h
  | paceExpiry => exact ofUnits (.paceEvent s) h
  | solicitExpiry => exact ofUnits (.solicitEvent s) h
  | censusStepExpiry => exact ofUnits (.censusStepEvent s) h
  | trunkFaultRising => exact execTrunkFaultRising h
  | trunkFaultFalling => exact execTrunkFaultFalling h
  | faultDrop => exact ofEvent (.given State.Running.accounts (.dropEvent s)) h
  | grant => exact execGrant h
  | frameSent => exact execFrameSent h
  | characterReceived data flag parity stop => exact ofEvent (.given State.Running.accounts (.receiveCharacter _ s)) h
  | replyIdleTimeout => exact ofEvent (.given State.Running.accounts (.idleTimeout s)) h
  | replyWindowTimeout => exact ofEvent (.given State.Running.accounts (.windowTimeout s)) h
  | solicitListenEnd => exact ofEvent (.given State.Running.accounts (.listenTimeout s)) h
  | guardEnd => exact execGuardEnd h
  | startBit began middle =>
    exact ofRunning (f := fun u => if middle then u else u.startCharacter began)
      (fun _ => cond (fun _ => refl s) fun _ => ofDeals id (.startCharacter began s)) h
  | responseByteBegin => exact execResponseByteBegin h

theorem step (h : step s = .next t) : s.Yields t := by
  unfold Machine.step at h
  split at h
  · next c rest hq =>
    have stepped := exec (s := { s with pending := rest }) h
    exact ⟨fun hs => stepped.requests hs.same, fun hfit hmap hs => stepped.accounts hfit.same hmap hs.same⟩
  · unfold idleStep at h
    split at h
    · cases h
      exact refl s
    · next hr =>
      split at h
      · exact exec h
      · cases h
        exact ofDeals (fun hs => ⟨hs, by simpa using hr⟩) (.refclkPeriod s)

end State.Yields

/-! ### The two invariants -/

/-- The account is what the invariant says of the responses, the queues and the Engine. -/
theorem accounts_iff {s : State} : s.Accounts 0 ↔ s.ResponsesFit ∧ s.ReleasesMatch ∧ s.QueuesFit ∧
    s.releaseInFlight = true ∧ s.FaultSound ∧ s.EngineSound := by
  constructor
  · rintro ⟨⟨hreserved, hroom, hqueues, hreleases⟩, hengine, hcarries, hreply, hfault⟩
    exact ⟨⟨hreserved, hroom, replyFits_iff.mpr hreply⟩, hreleases, hqueues, releaseInFlight_iff.mpr hcarries, hfault,
      hengine⟩
  · rintro ⟨⟨hreserved, hroom, hreply⟩, hreleases, hqueues, hcarries, hfault, hengine⟩
    exact ⟨⟨hreserved, hroom, hqueues, hreleases⟩, hengine, releaseInFlight_iff.mp hcarries, replyFits_iff.mp hreply,
      hfault⟩

/-- Settles O57: only a byte of a WRITE access adds to the Request FIFO, out of the space its length byte found free. -/
theorem everyStepKeepsTheRequestFifo : Obligations.EveryStepKeepsTheRequestFifo :=
  fun _ _ hs h => (State.Yields.step h).requests hs

/-- Settles O60: each request is taken with its maximum response free and answers within it, now or out of its reservation. -/
theorem everyStepKeepsTheResponseSpace : Obligations.EveryStepKeepsTheResponseSpace := by
  intro s t ⟨hresponses, hreleases, hqueues, hmap, hfit, hcarries, hfault, hengine⟩ h
  have kept := State.Yields.step h
  have hs := accounts_iff.mpr ⟨hresponses, hreleases, hqueues, hcarries, hfault, hengine⟩
  obtain ⟨hresponses', hreleases', hqueues', hcarries', hfault', hengine'⟩ := accounts_iff.mp (kept.accounts hfit hmap hs)
  exact ⟨hresponses', hreleases', hqueues', everyStepKeepsTheAddressMap s t hmap h, kept.requests hfit, hcarries', hfault',
    hengine'⟩

end Sys2Proof.Machine

/-! ## The pins, the accesses and both resets (9.1 to 9.3, 9.7) -/
namespace Sys2Proof.Machine
set_option Elab.async false

/-! ### Resets (R201, R202) -/

/-- What a part just out of reset is: the reset state with RESTARTED set, and a high TRUNK_FAULT taken as a rising (R65). -/
theorem restart_held (pins : Pins) (pending : List Instr) (a : Access) :
    ((State.held pins pending).setAccess a).restart = { State.reset with
      pins := pins
      host := { State.reset.host with access := a }
      causes := { State.reset.causes with flags := if pins.fault then 0x1001 else 0x0001 }
      engine := { State.reset.engine with grace := if pins.fault then .running 200 else .stopped }
      pending := pending } := by
  have low : Causes.held.flags ||| Cause.restarted.mask = 0x0001 := by decide
  have high : Causes.held.flags ||| Cause.restarted.mask ||| Cause.lineFault.mask = 0x1001 := by decide
  obtain ⟨rstLow, csLow, fault⟩ := pins
  cases fault with
  | false => exact congrArg (fun flags => { State.held ⟨rstLow, csLow, false⟩ pending with
      host := { HostPort.reset with access := a }, causes := { Causes.held with flags := flags } }) low
  | true => exact congrArg (fun flags => { State.held ⟨rstLow, csLow, true⟩ pending with
      host := { HostPort.reset with access := a }, causes := { Causes.held with flags := flags }
      engine := { Engine.reset with grace := .running 200 } }) high

theorem exec_rstAssert {s : State} (hr : s.pins.rstLow = false) :
    exec .rstAssert s = .next (State.held { s.pins with rstLow := true } s.pending) := by
  simp [exec, execRstAssert, hr]

theorem exec_rstRise {s : State} (hr : s.pins.rstLow = true) :
    exec .rstRise s = .next (((State.held { s.pins with rstLow := false } s.pending).setAccess
      (if s.pins.csLow then .ignore else .ready)).restart) :=
  (congrFun (congrFun rfl _) s).trans (if_pos hr)

/-- Settles O5: a falling leaves the held part, and a rising restarts it. -/
theorem resetPinHoldsAndStartsThePart : Obligations.ResetPinHoldsAndStartsThePart :=
  ⟨fun _ hr => exec_rstAssert hr, fun _ hr => (exec_rstRise hr).trans (congrArg _ (restart_held _ _ _))⟩

/-- While RST# is low no entry of the Request FIFO is taken (R202). -/
theorem takeHead_held {row : Instr} {handle : ReqEntry → State → State} {s : State} (hr : s.pins.rstLow = true) :
    takeHead row handle s = .next s := whenRunning_held hr

theorem takeRequest_held {row : Instr} {handle : Byte → List Byte → State → State} {s : State}
    (hr : s.pins.rstLow = true) : takeRequest row handle s = .next s := by
  unfold takeRequest
  exact takeHead_held hr

/-- Settles O6: events and takes are held back while RST# is low, and the commands of CS# and TRUNK_FAULT move their pin. -/
theorem nothingMovesWhileRstIsLow : Obligations.NothingMovesWhileRstIsLow := by
  intro c s hr hc
  cases c with
  | rstRise => exact absurd rfl hc
  | rstAssert => exact ⟨s.pins, hr, if_pos hr⟩
  | csFall =>
    by_cases hl : s.pins.csLow = true
    · exact ⟨s.pins, hr, if_pos hl⟩
    · exact ⟨{ s.pins with csLow := true }, hr, (if_neg hl).trans (whenRunning_held hr)⟩
  | csRise =>
    by_cases hl : s.pins.csLow = true
    · exact ⟨{ s.pins with csLow := false }, hr, (if_pos hl).trans (whenRunning_held hr)⟩
    · exact ⟨s.pins, hr, if_neg hl⟩
  | trunkFaultRising =>
    by_cases hf : s.pins.fault = true
    · exact ⟨s.pins, hr, if_pos hf⟩
    · exact ⟨{ s.pins with fault := true }, hr, (if_neg hf).trans (whenRunning_held hr)⟩
  | trunkFaultFalling =>
    by_cases hf : s.pins.fault = true
    · exact ⟨{ s.pins with fault := false }, hr, (if_pos hf).trans (if_pos hr)⟩
    · exact ⟨s.pins, hr, if_neg hf⟩
  | accessByte | requestByte | responseByteBegin | responseByteRead | tick | secondsStrobe | paceExpiry | solicitExpiry
  | censusStepExpiry | faultDrop | grant | frameSent | startBit | characterReceived | replyIdleTimeout | replyWindowTimeout
  | solicitListenEnd | guardEnd =>
    unfold exec
    exact ⟨s.pins, hr, whenRunning_held hr⟩
  | badFrame | unknownRequest => exact ⟨s.pins, hr, takeHead_held hr⟩
  | _ => exact ⟨s.pins, hr, takeRequest_held hr⟩

/-- A RESET without arguments is taken whatever the space (R191). -/
theorem exec_reset_unconditional {s : State} {k tag : Byte} {rest : List ReqEntry} (hr : s.pins.rstLow = false)
    (he : s.host.requests = .frame [k, 0x06, tag] :: rest) :
    exec .reset s = .next (resetRequest tag [] (s.popped rest)) := by
  have taken : takeRequest .reset resetRequest s = .next (resetRequest tag [] (s.popped rest)) :=
    takeHead_head hr he (row_of_code .reset) (fits_iff.mpr (.inr ⟨k, tag, rfl⟩))
  exact taken

/-- Settles O12: every block restarts, and the response to the RESET stands alone. -/
theorem resetRequestResetsEveryBlock : Obligations.ResetRequestResetsEveryBlock := by
  intro s k tag rest hr he
  rw [exec_reset_unconditional hr he]
  have blocks : (s.popped rest).resetBlocks = _ := restart_held s.pins s.pending s.host.access.afterReset
  have flags : (if s.pins.fault then 0x1001 else 0x0001 : Half) ||| 0x0002 = if s.pins.fault then 0x1003 else 0x0003 := by
    cases s.pins.fault <;> decide
  rw [resetRequest, blocks, answer_eq_replied, State.replied]
  dsimp only
  rw [flags]
  generalize s.host.access = access
  cases access <;> rfl

end Sys2Proof.Machine

/-! ## The bytes of the host port (9.1 to 9.3) -/
namespace Sys2Proof.Machine
set_option Elab.async false

/-! ### Accesses (R181, R185, R188) -/

/-- CS# falls on a part in READY (R181). -/
theorem exec_csFall {s : State} (hr : s.pins.rstLow = false) (hl : s.pins.csLow = false) (ha : s.host.access = .ready) :
    exec .csFall s = .next (State.setAccess .select { s with pins := { s.pins with csLow := true } }) := by
  simp only [exec, execCsFall, hl, Bool.false_eq_true, if_false, whenRunning, hr, ha, if_true]

/-- CS# rises with a frame in assembly (R185). -/
theorem exec_csRise_inFrame {s : State} {n : Nat} {got : List Byte} (hr : s.pins.rstLow = false) (hl : s.pins.csLow = true)
    (ha : s.host.access = .write (.inFrame n got)) :
    exec .csRise s = .next ((State.raise .reqOverrun { s with pins := { s.pins with csLow := false } }).setAccess .ready) := by
  simp only [exec, execCsRise, hl, if_true, whenRunning, hr, Bool.false_eq_true, if_false, ha]

/-- CS# rises otherwise (R181). -/
theorem exec_csRise {s : State} (hr : s.pins.rstLow = false) (hl : s.pins.csLow = true)
    (ha : ∀ n got, s.host.access ≠ .write (.inFrame n got)) :
    exec .csRise s = .next (State.setAccess .ready { s with pins := { s.pins with csLow := false } }) := by
  refine (if_pos hl).trans ((whenRunning_running (s := { s with pins := { s.pins with csLow := false } }) hr).trans
    (congrArg _ ?_))
  split
  · next n got h => exact absurd h (ha n got)
  · rfl

theorem exec_accessByte {s : State} (hr : s.pins.rstLow = false) (ha : s.host.access = .select) (b : Byte) :
    exec (.accessByte b) s = .next (s.setAccess (s.accessOf b)) := by
  simp only [exec, execAccessByte, whenRunning, hr, Bool.false_eq_true, if_false, ha, if_true]

/-- With no frame in assembly the free space is what the entries leave (R183). -/
theorem requestSpace_unclaimed {s : State} (h : s.host.access.claimed = 0) :
    s.requestSpace = 256 - requestBytes s.host.requests := by
  rw [State.requestSpace, h, Nat.sub_zero, Config.requestFifo]

/-- Settles O7: each edge of CS# and the access byte, one by one. -/
theorem accessesBeginAndEnd : Obligations.AccessesBeginAndEnd := by
  intro s hr
  refine ⟨fun hl ha => exec_csFall hr hl ha, fun hl ha => exec_csRise hr hl ha,
    fun hl n got ha => exec_csRise_inFrame hr hl ha, fun ha b => ?_⟩
  rw [exec_accessByte hr ha b, State.accessOf, State.portStatus, requestSpace_unclaimed (by rw [ha]; rfl)]
  rfl

/-! ### Frame assembly (R183, R186) -/

theorem exec_requestByte {s : State} {a : Assembly} (hr : s.pins.rstLow = false) (ha : s.host.access = .write a) (b : Byte) :
    exec (.requestByte b) s = .next (s.assemble b a) := by
  simp only [exec, execRequestByte, whenRunning, hr, Bool.false_eq_true, if_false, ha]

section Length
variable {s : State} {b : Byte}

theorem takeLength_claims (h3 : 3 ≤ b.toNat) (h24 : b.toNat ≤ 24) (hroom : b.toNat ≤ s.requestSpace) :
    s.takeLength b = s.setAssembly (.inFrame b.toNat [b]) := by
  simp only [State.takeLength, h3, h24, hroom, true_and, if_true]

theorem takeLength_skips (h3 : 3 ≤ b.toNat) (h24 : b.toNat ≤ 24) (hroom : s.requestSpace < b.toNat) :
    s.takeLength b = (s.raise .reqOverrun).setAssembly (.skip (b.toNat - 1)) := by
  simp only [State.takeLength, h3, h24, Nat.not_le.mpr hroom, true_and, if_true, if_false]

theorem takeLength_marks (h : b.toNat < 3 ∨ 24 < b.toNat) (hroom : 1 ≤ s.requestSpace) :
    s.takeLength b = (s.enqueue (.marker b)).setAssembly .discard := by
  have bad : ¬(3 ≤ b.toNat ∧ b.toNat ≤ 24) := by omega
  simp only [State.takeLength, bad, hroom, if_true, if_false]

theorem takeLength_discards (h : b.toNat < 3 ∨ 24 < b.toNat) (hroom : s.requestSpace = 0) :
    s.takeLength b = (s.raise .reqOverrun).setAssembly .discard := by
  have bad : ¬(3 ≤ b.toNat ∧ b.toNat ≤ 24) := by omega
  simp [State.takeLength, bad, hroom]

/-- The row of EXPECT_LENGTH. -/
theorem exec_lengthByte (hr : s.pins.rstLow = false) (ha : s.host.access = .write .expectLength) :
    exec (.requestByte b) s = .next (s.takeLength b) := exec_requestByte hr ha b

end Length

/-- Settles O8: the row of each assembly state. -/
theorem requestBytesAreAssembled : Obligations.RequestBytesAreAssembled := by
  intro s b hr free
  refine ⟨fun ha => exec_accessByte hr ha 0x01, fun ha => ?length, fun n got ha => ?frame, fun ha => ?lastSkipped,
    fun m hm ha => ?skipped, fun ha => exec_requestByte hr ha b⟩
  case length =>
    have space : s.requestSpace = free := requestSpace_unclaimed (by rw [ha]; rfl)
    rw [exec_lengthByte hr ha]
    refine ⟨fun h3 h24 hroom => ?_, fun h3 h24 hroom => ?_, fun hbad hroom => ?_, fun hbad hroom => ?_⟩
    · rw [takeLength_claims h3 h24 (space ▸ hroom)]
      rfl
    · rw [takeLength_skips h3 h24 (space ▸ hroom)]
      rfl
    · rw [takeLength_marks hbad (space ▸ hroom)]
      rfl
    · rw [takeLength_discards hbad (space.trans hroom)]
      rfl
  case frame =>
    rw [exec_requestByte hr ha b, State.assemble]
    refine ⟨fun hmore => ?_, fun hlast => ?_⟩
    · rw [if_neg (Nat.not_le.mpr hmore)]
      rfl
    · rw [if_pos (Nat.le_of_eq hlast.symm)]
      rfl
  case lastSkipped => exact exec_requestByte hr ha b
  case skipped =>
    rw [exec_requestByte hr ha b, State.assemble, if_neg (Nat.not_le.mpr hm)]
    rfl

/-! ### Reading responses (R182, R187, R188) -/

section Responses
variable {s : State} {spent : Bool}

theorem exec_responseByteBegin (hr : s.pins.rstLow = false) (ha : s.host.access = .readResponse none spent) :
    exec .responseByteBegin s = .next (s.setAccess (.readResponse (some (s.chooseByte spent)) spent)) := by
  simp only [exec, execResponseByteBegin, whenRunning, hr, Bool.false_eq_true, if_false, ha]

theorem exec_responseByteRead {out : ResponseByte} (hr : s.pins.rstLow = false)
    (ha : s.host.access = .readResponse (some out) spent) :
    exec .responseByteRead s = .next ((s.sendByte out).setAccess (.readResponse none spent)) := by
  simp only [exec, execResponseByteRead, whenRunning, hr, Bool.false_eq_true, if_false, ha, Option.getD_some]

theorem exec_responseByteRead_status {record : List Byte} (hr : s.pins.rstLow = false)
    (ha : s.host.access = .readStatus record) :
    exec .responseByteRead s = .next (s.setAccess (.readStatus (record.drop 1))) := by
  simp only [exec, execResponseByteRead, whenRunning, hr, Bool.false_eq_true, if_false, ha]

/-- MISO carries filler outside the reads (R182). -/
theorem misoByte_unread (h : s.host.access = .select ∨ s.host.access = .ignore ∨ ∃ a, s.host.access = .write a) :
    s.misoByte = 0 := by
  rcases h with h | h | ⟨a, h⟩ <;> simp only [State.misoByte, h]

end Responses

/-- Bit 7 travels first (R182). -/
theorem portBits_getElem {i : Nat} (h : i < 8) (b : Byte) : (portBits b)[i]? = some (b.getLsbD (7 - i)) := by
  simp [portBits, h]

/-- Settles O9: the byte begun, the byte complete, the byte on MISO and its bits. -/
theorem responseBytesLeaveFromTheHead : Obligations.ResponseBytesLeaveFromTheHead := by
  refine ⟨fun s => by simp [State.misoDriven], fun s hr => ⟨fun ha b rest hq => ?_, fun ha hq => ?_, fun ha => ?_,
    fun b spent ha => ⟨by rw [State.misoByte, ha], exec_responseByteRead hr ha⟩,
    fun spent ha => ⟨by rw [State.misoByte, ha], exec_responseByteRead hr ha⟩,
    fun record ha => ⟨by rw [State.misoByte, ha], exec_responseByteRead_status hr ha⟩, misoByte_unread,
    fun i hi => portBits_getElem hi _, ?bits, fun bits hbits => if_neg (Nat.ne_of_lt hbits)⟩⟩
  · rw [exec_responseByteBegin hr ha, State.chooseByte, hq]
    rfl
  · rw [exec_responseByteBegin hr ha, State.chooseByte, hq]
    rfl
  · exact exec_responseByteBegin hr ha
  case bits =>
    intro b7 b6 b5 b4 b3 b2 b1 b0
    refine ⟨_, rfl, ?_⟩
    revert b7 b6 b5 b4 b3 b2 b1 b0
    decide

end Sys2Proof.Machine

/-! ## The Dispatcher (9.2, 9.4, 9.5) -/
namespace Sys2Proof.Machine
set_option Elab.async false

/-! ### The catalogue (Tables 9-3 and 9-6) -/

theorem Request.mem_all (r : Request) : r ∈ Request.all := by cases r <;> decide

/-- The codes of Table 9-3, in the order of the catalogue. -/
theorem code_mem_all (r : Request) : r.code ∈ Request.all.map Request.code := List.mem_map_of_mem r.mem_all

theorem ofCode_eq_none {b : Byte} (h : ∀ r : Request, r.code ≠ b) : Request.ofCode b = none := by
  cases hr : Request.ofCode b with
  | none => rfl
  | some r => exact absurd (ofCode_eq_some.mp hr).symm (h r)

theorem maxResponse_of_code {k tag : Byte} {args : List Byte} (r : Request) :
    (ReqEntry.frame (k :: r.code :: tag :: args)).maxResponse = r.maxResponse (args.length + 3) := by
  simp only [ReqEntry.maxResponse, frameCode, List.getD_cons_succ, List.getD_cons_zero, ofCode_code, List.length_cons]

theorem maxResponse_of_noCode {bytes : List Byte} (h : Request.ofCode (frameCode bytes) = none) :
    (ReqEntry.frame bytes).maxResponse = 4 := by
  simp only [ReqEntry.maxResponse, h]

/-- The rows of TRUNK_CONTROL by its action (log entry 2). -/
theorem trunkControl_row (a : Byte) :
    Request.row .trunkControl [a] = if a = 2 then .disable else if a = 3 then .resetTrunk else .enable := by
  simp only [Request.row, List.cons.injEq, and_true]

theorem trunkControl_row_length {args : List Byte} (h : args.length ≠ 1) : Request.row .trunkControl args = .enable := by
  have h2 : args ≠ [2] := fun e => h (e ▸ rfl)
  have h3 : args ≠ [3] := fun e => h (e ▸ rfl)
  simp only [Request.row, h2, h3, if_false]

/-- The rows of RETIRE by its mode (log entry 2). -/
theorem retire_row (n a : Byte) : Request.row .retire [n, a] = if a = 0 then .retireGraceful else .retireForced := by
  simp [Request.row]

theorem retire_row_length {args : List Byte} (h : args.length ≠ 2) : Request.row .retire args = .retireForced := by
  simp only [Request.row, h, false_and, if_false]

/-! ### Wrong counts (R193) -/

/-- The owner that takes a request, and for TRUNK_CONTROL and RETIRE that of the row which refuses the count. -/
def Request.owner : Request → Byte → List Byte → State → State
  | .echo => echoRequest | .readEngine => readEngineRequest | .configure => configureRequest | .readConfig => readConfigRequest
  | .trunkControl => enableRequest | .reset => resetRequest | .causeControl => causeControlRequest
  | .readCauses => readCausesRequest | .readChanges => readChangesRequest | .readSlot => readSlotRequest
  | .lookupIdentity => lookupIdentityRequest | .lookupAddress => lookupAddressRequest | .setFields => setFieldsRequest
  | .pin => pinRequest | .retire => retireForcedRequest | .ringMove => ringMoveRequest | .setEnrolMode => setEnrolModeRequest
  | .admitAdd => admitAddRequest | .admitRemove => admitRemoveRequest | .admitClear => admitClearRequest
  | .admitRead => admitReadRequest | .pollControl => pollControlRequest | .pollRound => pollRoundRequest
  | .censusStart => censusStartRequest | .censusStop => censusStopRequest | .censusStep => censusStepRequest
  | .censusStatus => censusStatusRequest | .relay => relayRequest | .relayCancel => relayCancelRequest

/-- A frame with a wrong count goes to that owner. -/
theorem exec_owner {s : State} {k tag : Byte} {args : List Byte} {rest : List ReqEntry} (r : Request)
    (h : s.Takes (k :: r.code :: tag :: args) rest) (hc : r.takesCount args.length = false) :
    exec (r.row args) s = .next (r.owner tag args (s.popped rest)) := by
  cases r with
  | trunkControl =>
    have hlength : args.length ≠ 1 := by simpa [Request.takesCount] using hc
    rw [trunkControl_row_length hlength]
    exact exec_enable h (fun e => hlength (e ▸ rfl)) fun e => hlength (e ▸ rfl)
  | retire =>
    have hlength : args.length ≠ 2 := by simpa [Request.takesCount] using hc
    rw [retire_row_length hlength]
    exact exec_retireForced h fun hm => hlength hm.1
  | _ => exact takeRequest_code _ h rfl

/-- The owner answers BAD_ARG with no data. -/
theorem owner_wrongCount (r : Request) {tag : Byte} {args : List Byte} (hc : r.takesCount args.length = false) (s : State) :
    r.owner tag args s = s.answer r tag .badArg [] := by
  cases r with
  | echo => exact if_neg (by simpa [Request.takesCount] using hc)
  | relay =>
    simp only [Request.owner, relayRequest]
    split
    · refine if_pos ?_
      simp only [Request.takesCount, List.length_cons, decide_eq_false_iff_not] at hc
      omega
    · rfl
  | _ =>
    simp only [Request.owner, readEngineRequest, configureRequest, readConfigRequest, enableRequest, resetRequest,
      causeControlRequest, readCausesRequest, readChangesRequest, readSlotRequest, lookupIdentityRequest,
      lookupAddressRequest, setFieldsRequest, pinRequest, retireForcedRequest, ringMoveRequest, setEnrolModeRequest,
      admitAddRequest, admitRemoveRequest, admitClearRequest, admitReadRequest, pollControlRequest, pollRoundRequest,
      censusStartRequest, censusStopRequest, censusStepRequest, censusStatusRequest, relayCancelRequest]
    split
    · cases hc
    · rfl

/-- A frame with a wrong count is refused. -/
theorem exec_wrongCount {s : State} {k tag : Byte} {args : List Byte} {rest : List ReqEntry} (r : Request)
    (h : s.Takes (k :: r.code :: tag :: args) rest) (hc : r.takesCount args.length = false) :
    exec (r.row args) s = .next ((s.popped rest).replied [4, r.code, tag, 0x04]) := by
  rw [exec_owner r h hc, owner_wrongCount r hc, answer_eq_replied]
  rfl

/-! ### A head without space (R191) -/

theorem takeHead_short {row : Instr} {handle : ReqEntry → State → State} {s : State} {e : ReqEntry} {rest : List ReqEntry}
    (hr : s.pins.rstLow = false) (he : s.host.requests = e :: rest) (hf : ¬s.fits e = true) :
    takeHead row handle s = .next s := by
  simp only [takeHead, whenRunning_running hr, he, hf, Bool.false_eq_true, and_false, if_false]

theorem takeRequest_short {row : Instr} {handle : Byte → List Byte → State → State} {s : State} {e : ReqEntry}
    {rest : List ReqEntry} (hr : s.pins.rstLow = false) (he : s.host.requests = e :: rest) (hf : ¬s.fits e = true) :
    takeRequest row handle s = .next s := by
  unfold takeRequest
  exact takeHead_short hr he hf

/-- The row of a request does not take a head without space. -/
theorem exec_request_short {s : State} {e : ReqEntry} {rest : List ReqEntry} (hr : s.pins.rstLow = false)
    (he : s.host.requests = e :: rest) (hf : ¬s.fits e = true) (r : Request) (args : List Byte) :
    exec (r.row args) s = .next s := by
  cases r with
  | trunkControl =>
    unfold Request.row
    dsimp only
    split
    · exact takeRequest_short hr he hf
    · split <;> exact takeRequest_short hr he hf
  | retire =>
    unfold Request.row
    dsimp only
    split <;> exact takeRequest_short hr he hf
  | _ => exact takeRequest_short hr he hf

theorem exec_row_short {s : State} {e : ReqEntry} {rest : List ReqEntry} (hr : s.pins.rstLow = false)
    (he : s.host.requests = e :: rest) (hf : ¬s.fits e = true) : exec e.row s = .next s := by
  cases e with
  | marker b => exact takeHead_short hr he hf
  | frame bytes =>
    unfold ReqEntry.row
    dsimp only
    split
    · next r _ => exact exec_request_short hr he hf r _
    · exact takeHead_short hr he hf

/-! ### The Dispatcher's own answers and ECHO (R186, R193, R200) -/

theorem exec_badFrame {s : State} {b : Byte} {rest : List ReqEntry} (hr : s.pins.rstLow = false)
    (he : s.host.requests = .marker b :: rest) (hspace : 5 ≤ s.space) :
    exec .badFrame s = .next ((s.popped rest).replied [5, 0x00, 0x00, 0x0E, b]) := by
  have taken : takeHead .badFrame badFrameRequest s = _ := takeHead_head hr he rfl (fits_of_space hspace)
  exact taken

theorem exec_unknownRequest {s : State} {k code tag : Byte} {args : List Byte} {rest : List ReqEntry}
    (h : s.Takes (k :: code :: tag :: args) rest) (hcode : Request.ofCode code = none) :
    exec .unknownRequest s = .next ((s.popped rest).replied [4, code, tag, 0x0F]) := by
  obtain ⟨hr, he, hspace⟩ := h
  have taken : takeHead .unknownRequest unknownRequestAnswer s = _ :=
    takeHead_head hr he (row_of_noCode hcode) (fits_of_space hspace)
  exact taken

/-- Settles O10: the tables, the refusals of a head that is taken, and the head without space. -/
theorem dispatcherTakesAndRefuses : Obligations.DispatcherTakesAndRefuses := by
  refine ⟨⟨fun _ => rfl, fun _ => ⟨rfl, rfl⟩, fun r k tag args => ⟨row_of_code r, ?sizes⟩,
    fun k code tag args hcode => ?unknown, rfl, fun a args => ⟨trunkControl_row a, trunkControl_row_length, fun n => retire_row n a, retire_row_length, rfl⟩⟩,
    ⟨fun s b rest hr he hspace => exec_badFrame hr he hspace, fun s k code tag args rest h hcode => ?answer⟩,
    fun r s k tag args rest h hc => exec_wrongCount r h hc, fun s e rest hr he hspace hreset => ?short⟩
  case sizes =>
    rw [maxResponse_of_code]
    cases r <;> rfl
  case unknown => exact ⟨row_of_noCode (ofCode_eq_none hcode), maxResponse_of_noCode (ofCode_eq_none hcode)⟩
  case answer => exact exec_unknownRequest h (ofCode_eq_none fun r hr => hcode (hr ▸ code_mem_all r))
  case short =>
    refine exec_row_short hr he fun hf => ?_
    rcases fits_iff.mp hf with hfits | ⟨k, tag, rfl⟩
    · exact absurd hfits (Nat.not_le.mpr hspace)
    · exact hreset k tag rfl

/-- Settles O11: the arguments of an ECHO are the data of its response. -/
theorem echoReturnsItsBytes : Obligations.EchoReturnsItsBytes := by
  intro s k tag args rest h hlength
  rw [exec_echo h, echoRequest, if_pos hlength, answer_eq_replied]
  rfl

end Sys2Proof.Machine

/-! ## The Cause Unit (chapter 10) -/
namespace Sys2Proof.Machine
set_option Elab.async false

/-! ### HINT# (R207) -/

/-- Two words meet in some bit exactly when their conjunction is not zero. -/
theorem and_ne_zero_iff {w : Nat} (x y : BitVec w) :
    x &&& y ≠ 0 ↔ ∃ i, i < w ∧ x.getLsbD i = true ∧ y.getLsbD i = true := by
  constructor
  · intro hxy
    by_contra hnone
    refine hxy (BitVec.eq_of_getLsbD_eq fun i hi => ?_)
    have apart : ¬(x.getLsbD i = true ∧ y.getLsbD i = true) := fun hboth => hnone ⟨i, hi, hboth⟩
    simpa using apart
  · rintro ⟨i, -, hx, hy⟩ hzero
    have bit : (x &&& y).getLsbD i = true := by rw [BitVec.getLsbD_and, hx, hy, Bool.and_self]
    rw [hzero] at bit
    exact absurd bit (by simp)

theorem hintLow_iff (s : State) : s.hintLow = true ↔
    s.pins.rstLow = false ∧ ∃ i, i < 16 ∧ s.causes.flags.getLsbD i = true ∧ s.causes.enables.getLsbD i = true := by
  rw [State.hintLow, Bool.and_eq_true, Bool.not_eq_true', bne_iff_ne, and_ne_zero_iff]

/-! ### CAUSE_CONTROL (R205, R208) -/

/-- A bit of a word rewritten under a mask. -/
theorem select_getLsbD (old bits select : Half) {i : Nat} (hi : i < 16) :
    ((old &&& ~~~select) ||| (bits &&& select)).getLsbD i =
      if select.getLsbD i then bits.getLsbD i else old.getLsbD i := by
  simp only [BitVec.getLsbD_or, BitVec.getLsbD_and, BitVec.getLsbD_not, hi, decide_true, Bool.true_and]
  cases select.getLsbD i <;> simp

theorem controlCauses_enables_getLsbD (select bits : Half) (clear : Bool) (s : State) {i : Nat} (hi : i < 16) :
    (s.controlCauses select bits clear).causes.enables.getLsbD i =
      if select.getLsbD i then bits.getLsbD i else s.causes.enables.getLsbD i :=
  select_getLsbD s.causes.enables bits select hi

theorem controlCauses_flags_getLsbD (select bits : Half) (clear : Bool) (s : State) {i : Nat} (hi : i < 16) :
    (s.controlCauses select bits clear).causes.flags.getLsbD i =
      (s.causes.flags.getLsbD i && !(clear && select.getLsbD i)) := by
  cases clear with
  | false => simp [State.controlCauses]
  | true => simp [State.controlCauses, hi]

/-- The response carries the words as they stand, and its append sets RESPONSE_READY unless the request cleared it. -/
theorem answerControl_eq (select : Half) (clear : Bool) (tag : Byte) (s : State) :
    s.answerControl select clear tag =
      { s with
        host := { s.host with responses := s.host.responses ++
          ([8, 0x08, tag, 0x00] ++ halfBytes s.causes.flags ++ halfBytes s.causes.enables) }
        causes := { s.causes with flags :=
          if clear = true ∧ select.getLsbD 1 = true then s.causes.flags else s.causes.flags ||| 0x0002 } } := by
  simp only [State.answerControl, Cause.bit, Bool.and_eq_true]
  split <;> rfl

section
variable {s : State} {k tag s0 s1 e0 e1 c : Byte} {rest : List ReqEntry}

theorem exec_causeControl_badArg (h : s.Takes [k, 0x08, tag, s0, s1, e0, e1, c] rest) (hc : 1 < c.toNat) :
    exec .causeControl s = .next ((s.popped rest).replied [4, 0x08, tag, 0x04]) := by
  rw [exec_causeControl h, causeControlRequest, bitOf_eq, if_neg (Nat.not_le.mpr hc)]
  rfl

theorem exec_causeControl_ok (h : s.Takes [k, 0x08, tag, s0, s1, e0, e1, c] rest) (hc : c.toNat ≤ 1) :
    exec .causeControl s = .next (((s.popped rest).controlCauses (s1 ++ s0) (e1 ++ e0) (decide (c = 1))).answerControl
      (s1 ++ s0) (decide (c = 1)) tag) := by
  rw [exec_causeControl h, causeControlRequest, bitOf_eq, if_pos hc]
  rfl

end

/-- Settles O13: HINT# is the meeting of flags and enables, and the two words change bit by bit. -/
theorem causeControlSetsEnablesAndClearsFlags : Obligations.CauseControlSetsEnablesAndClearsFlags := by
  refine ⟨hintLow_iff, fun s k tag s0 s1 e0 e1 c rest h => ⟨exec_causeControl_badArg h, fun hc => ?_⟩⟩
  have taken := exec_causeControl_ok h hc
  have enables (i : Nat) (hi : i < 16) :=
    controlCauses_enables_getLsbD (s1 ++ s0) (e1 ++ e0) (decide (c = 1)) (s.popped rest) hi
  have flags (i : Nat) (hi : i < 16) :=
    controlCauses_flags_getLsbD (s1 ++ s0) (e1 ++ e0) (decide (c = 1)) (s.popped rest) hi
  rw [answerControl_eq] at taken
  refine ⟨_, taken, rfl, rfl, rfl, _, fun i hi => ⟨enables i hi, flags i hi⟩, rfl, ?_, ?_⟩
  · simp only [decide_eq_true_eq]
  · exact (hintLow_iff _).trans (and_iff_right h.1)

/-! ### The Change Set (R211) -/

theorem mem_changeSet {s : State} {n : Slot} : n ∈ s.changeSet ↔ s.causes.changes[n] ≠ 0 := by
  simp [State.changeSet, allSlots]

theorem State.changeSet_pairwise (s : State) : s.changeSet.Pairwise (fun a b => a < b) :=
  (List.pairwise_lt_finRange Config.slots).filter _

/-- An ascending list of the members is the Change Set. -/
theorem changeSet_eq {s : State} {ns : List Slot} (hasc : ns.Pairwise (fun a b => a < b))
    (hmem : ∀ n : Slot, n ∈ ns ↔ s.causes.changes[n] ≠ 0) : s.changeSet = ns :=
  s.changeSet_pairwise.eq_of_mem_iff hasc fun n => mem_changeSet.trans (hmem n).symm

/-- Removed slots have no reasons, and the others keep theirs (R213). -/
theorem removeChanges_changes (ns : List Slot) (s : State) (m : Slot) :
    (s.removeChanges ns).causes.changes[m] = if m ∈ ns then 0 else s.causes.changes[m] := by
  unfold State.removeChanges
  induction ns generalizing s with
  | nil => simp
  | cons n ns ih =>
    rw [List.foldl_cons, ih, State.setReasons_changes]
    by_cases hm : m ∈ ns
    · simp [hm]
    · simp [hm]

theorem removeChanges_frame (ns : List Slot) (s : State) : s.removeChanges ns =
    { s with causes := { s.causes with changes := (s.removeChanges ns).causes.changes } } := by
  unfold State.removeChanges
  induction ns generalizing s with
  | nil => rfl
  | cons n ns ih => exact ih (s.setReasons n 0)

/-- What is left of the Change Set when its lowest members are removed. -/
theorem changeSet_removeChanges {s : State} {taken left : List Slot}
    (hasc : (taken ++ left).Pairwise (fun a b => a < b)) (hmem : ∀ n : Slot, n ∈ taken ++ left ↔ s.causes.changes[n] ≠ 0) :
    (s.removeChanges taken).changeSet = left := by
  obtain ⟨-, hleft, hlt⟩ := List.pairwise_append.mp hasc
  refine changeSet_eq hleft fun n => ?_
  rw [removeChanges_changes]
  by_cases htaken : n ∈ taken
  · rw [if_pos htaken]
    exact iff_of_false (fun hn => lt_irrefl n (hlt n htaken n hn)) fun hne => hne rfl
  · rw [if_neg htaken, ← hmem n, List.mem_append, or_iff_right htaken]

/-- CHANGES stands unless the Change Set is empty. -/
theorem clearChanges_eq (s : State) : s.clearChanges = { s with causes := { s.causes with
    flags := if s.changeSet = [] then s.causes.flags &&& 0xFFFB else s.causes.flags } } := by
  simp only [State.clearChanges, List.isEmpty_iff]
  split <;> rfl

@[simp] theorem clearChanges_changeSet (s : State) : s.clearChanges.changeSet = s.changeSet := by
  rw [clearChanges_eq]
  rfl

/-! ### READ_CHANGES (R213) -/

/-- A front that is as long as it may be is the list's first `m`. -/
theorem take_front {α : Type} {taken left : List α} {m : Nat} (hle : taken.length ≤ m)
    (hfull : taken.length < m → left = []) : (taken ++ left).take m = taken := by
  rcases hle.eq_or_lt with rfl | hlt
  · exact List.take_left
  · rw [hfull hlt, List.append_nil, List.take_of_length_le hle]

theorem changeEntries_length (s : State) (ns : List Slot) : (ns.map s.changeEntry).flatten.length = 3 * ns.length := by
  simp [List.length_flatten, Function.comp_def, State.changeEntry, Nat.mul_comm]

section
variable {s : State} {k tag m : Byte} {rest : List ReqEntry}

theorem exec_readChanges_badArg (h : s.Takes [k, 0x0A, tag, m] rest) (hm : m.toNat < 1 ∨ 8 < m.toNat) :
    exec .readChanges s = .next ((s.popped rest).replied [4, 0x0A, tag, 0x04]) := by
  rw [exec_readChanges h, readChangesRequest, if_neg (by omega)]
  rfl

/-- The take of READ_CHANGES removes the lowest members and answers with their entries. -/
theorem exec_readChanges_ok (h : s.Takes [k, 0x0A, tag, m] rest) (hm : 1 ≤ m.toNat ∧ m.toNat ≤ 8) {taken left : List Slot}
    (hasc : (taken ++ left).Pairwise (fun a b => a < b)) (hmem : ∀ n : Slot, n ∈ taken ++ left ↔ s.causes.changes[n] ≠ 0)
    (hle : taken.length ≤ m.toNat) (hfull : taken.length < m.toNat → left = []) :
    exec .readChanges s = .next ((((s.popped rest).removeChanges taken).clearChanges).replied
      ([byteOf (6 + 3 * taken.length), 0x0A, tag, 0x00, byteOf taken.length, byteOf left.length] ++
        (taken.map s.changeEntry).flatten)) := by
  have members : (s.popped rest).changeSet = taken ++ left := changeSet_eq hasc hmem
  have remaining : ((s.popped rest).removeChanges taken).changeSet = left := changeSet_removeChanges hasc hmem
  have length : ([byteOf taken.length, byteOf left.length] ++ (taken.map s.changeEntry).flatten).length + 4 =
      6 + 3 * taken.length := by
    rw [List.length_append, changeEntries_length, List.length_cons, List.length_singleton]
    omega
  rw [exec_readChanges h, readChangesRequest, if_pos hm]
  dsimp only
  rw [members, take_front hle hfull, clearChanges_changeSet, remaining, answer_eq_replied, responseFrame]
  have entries : (s.popped rest).changeEntry = s.changeEntry := rfl
  rw [entries, length]
  rfl

end

/-- Settles O15: the Change Set is an ascending list, of which `taken` is the front and `left` the rest. -/
theorem readChangesTakesTheLowestMembers : Obligations.ReadChangesTakesTheLowestMembers := by
  refine ⟨fun s n r => ⟨(s.handOver n r).causes.changes, fun m => ?_, rfl⟩, fun s k tag m rest h =>
    ⟨exec_readChanges_badArg h, fun hlow hhigh taken left hasc hmem hle hfull =>
      ⟨((s.popped rest).removeChanges taken).causes.changes, removeChanges_changes taken (s.popped rest), ?_⟩⟩⟩
  · exact s.handOver_changes n r m
  · have remaining : ((s.popped rest).removeChanges taken).changeSet = left := changeSet_removeChanges hasc hmem
    rw [exec_readChanges_ok h ⟨hlow, hhigh⟩ hasc hmem hle hfull, clearChanges_eq, remaining, removeChanges_frame]
    rfl

end Sys2Proof.Machine

/-! ## The step of a part with a command waiting (1.7) -/
namespace Sys2Proof.Machine
set_option Elab.async false

theorem step_front {s : State} {c : Instr} {rest : List Instr} (h : s.pending = c :: rest) :
    step s = exec c { s with pending := rest } := by
  simp only [step, h]

/-- Settles O1: the queue of the state the statement builds has `c` at its front, so the step's first branch runs. -/
theorem stepTakesTheFrontCommand : Obligations.StepTakesTheFrontCommand :=
  fun c s rest => step_front (s := { s with pending := c :: rest }) rfl

end Sys2Proof.Machine
